-- ==== Sys2Proof/Word.lean ====
section
/-! DEFINITION. The data types of the block (spec/00_scope.md R12, R14): bytes, levels, colours, slots, images. -/

namespace Sys2Proof

/-- A byte, an integer 0..255 (R12). -/
abbrev Byte := BitVec 8

/-- A level of a line: `true` is 1 (high), `false` is 0 (low) (R12, R14). -/
abbrev Level := Bool

/-- A Color: three unsigned 8-bit channels (R120). -/
structure Color where
  r : Byte
  g : Byte
  b : Byte
deriving DecidableEq, Repr

/-- One of the three channels of a Color (R61). -/
inductive Channel where
  | r
  | g
  | b
deriving DecidableEq, Repr

/-- The byte of one channel of a Color. -/
def Color.channel (c : Color) : Channel → Byte
  | .r => c.r
  | .g => c.g
  | .b => c.b

/-- Black is (0,0,0) (R120). -/
def Color.black : Color := ⟨0, 0, 0⟩

/-- A slot of the arena, 0..2; a handle's value is its slot number (R14, R25). -/
abbrev Slot := Fin 3

/-- An Image in its byte view: 192 bytes, the byte of (row, col, channel) at `3*(8*row+col)+channel` (R14, R61). -/
abbrev Image := Vector Byte 192

/-- The eight Colors of one row, the operand `px[0..7]` of SEND_ROW (R145, R182). -/
abbrev RowPixels := Vector Color 8

end Sys2Proof
end

