-- ==== Sys2Proof/Syntax.lean ====
section
/-! DEFINITION. The operations of the block (spec/30_encoding.md R101, spec/opcode_table.json): one constructor of
`Instr` for each operation of the table. The eight rows of DATA are eight bit patterns of one operation (R91). -/

namespace Sys2Proof

/-- The 13 output lines (R30): five control lines and eight row-select lines. -/
inductive Line where
  | sb
  | lat
  | rst
  | sck
  | sda
  | row (i : Fin 8)
deriving DecidableEq, Repr

/-- An event of the trace: a level written to a line, or a delay (R14, R97). -/
inductive LineEvent where
  | set (l : Line) (v : Level)
  | delay (ms : Nat)
deriving DecidableEq, Repr

/-- The four causes of a ContractViolation (R251). -/
inductive Cause where
  | indexOutOfRange
  | poolExhausted
  | rowOutOfRange
  | badHandle
deriving DecidableEq, Repr

/-- The agents that make steps of the block (R9); the environment is not one of them. -/
inductive Agent where
  | boot
  | rx
  | disp
  | saver
  | notice
deriving DecidableEq, Repr

/-- The shared cells a critical section can lock (R262): `next`, the pool, `changes`. -/
inductive Shared where
  | next
  | pool
  | changes
deriving DecidableEq, Repr

/-- What LOCK does: enter a critical section on a set of cells, or leave the innermost one (R262). -/
inductive LockOp where
  | enter (cells : List Shared)
  | leave
deriving DecidableEq, Repr

/-- The Image operand of an image operation: an image value, or the image in a slot of the arena, accessed by an agent
that must own it (R60, R68; DESIGN CHOICE, log 42). -/
inductive ImgRef where
  | value (img : Image)
  | slot (who : Agent) (h : Slot)
deriving DecidableEq, Repr

/-- The scalar operand of COLOR_MUL and COLOR_DIV: a rational, or one of the floats R127 excludes (R125, R127). -/
inductive Scalar where
  | rat (q : Rat)
  | nan
  | posInf
  | negInf
deriving DecidableEq, Repr

/-- The operations of R101. `who` is the agent that performs a pool operation, the spec's implicit caller (log 5). -/
inductive Instr where
  /-- SYNC, the byte 0xFF (R201). -/
  | sync
  /-- DATA(d), a byte 0x00..0xFE (R202, R203, R204). -/
  | data (d : Byte)
  /-- RX_BYTE, one activation of ReceiveByte (R200). -/
  | rxByte
  /-- NOTICE_CHANGE, one activation of NoticeChange (R206). -/
  | noticeChange
  /-- DISPLAY_TICK, one activation of Display (R220). -/
  | displayTick
  /-- FRAME_SWAP (R223). -/
  | frameSwap
  /-- SAVER_TICK, one activation of Screensaver (R235). -/
  | saverTick
  /-- RESET, the event of ENV (R290). -/
  | reset
  /-- BOOT, the initialisation activation (R291). -/
  | boot
  /-- DRV_INIT (R180). -/
  | drvInit
  /-- SEND_ROW(row, px[0..7]) (R182). -/
  | sendRow (row : Int) (px : RowPixels)
  /-- SHIFT_BYTE(v) (R181). -/
  | shiftByte (v : Byte)
  /-- SET_LINE, `SetLine(L, v)` (R176). -/
  | setLine (l : Line) (v : Level)
  /-- PULSE_SCK (R177). -/
  | pulseSck
  /-- PULSE_LAT (R178). -/
  | pulseLat
  /-- DELAY_MS, `DelayMs(n)` (R179). -/
  | delayMs (n : Nat)
  /-- GAMMA_CORRECT(v) (R122). -/
  | gammaCorrect (v : Byte)
  /-- COLOR_GAMMA(c) (R123). -/
  | colorGamma (c : Color)
  /-- COLOR_MUL(c, f) (R125). -/
  | colorMul (c : Color) (f : Scalar)
  /-- COLOR_DIV(c, f) (R126). -/
  | colorDiv (c : Color) (f : Scalar)
  /-- IMG_SOLID(c) (R140). -/
  | imgSolid (c : Color)
  /-- IMG_GRADIENT(c) (R141). -/
  | imgGradient (c : Color)
  /-- IMG_INDEX_RD(img, row, col) (R142). -/
  | imgIndexRd (img : ImgRef) (row col : Int)
  /-- IMG_INDEX_WR(img, row, col, c) (R143). -/
  | imgIndexWr (img : ImgRef) (row col : Int) (c : Color)
  /-- IMG_BYTE_RD(img, k) (R144). -/
  | imgByteRd (img : ImgRef) (k : Int)
  /-- IMG_BYTE_WR(img, k, v) (R144). -/
  | imgByteWr (img : ImgRef) (k : Int) (v : Byte)
  /-- IMG_ROW(img, row) (R145). -/
  | imgRow (img : ImgRef) (row : Int)
  /-- SET_PIXEL(img, x, y, c) (R146). -/
  | setPixel (img : ImgRef) (x y : Int) (c : Color)
  /-- CANVAS_SIZE() (R147). -/
  | canvasSize
  /-- POOL_ALLOC(init) (R161). -/
  | poolAlloc (who : Agent) (init : Image)
  /-- POOL_FREE(h) (R162). -/
  | poolFree (who : Agent) (h : Slot)
  /-- NEXT_REPLACE(h) (R166). -/
  | nextReplace (who : Agent) (h : Slot)
  /-- NEXT_TAKE() (R167). -/
  | nextTake (who : Agent)
  /-- LOCK, entering or leaving `lock(S) { … }` (R262). -/
  | lock (who : Agent) (op : LockOp)
  /-- HALT, `raise ContractViolation(cause)` (R252). -/
  | halt (c : Cause)
deriving DecidableEq, Repr

end Sys2Proof
end

