-- ==== Sys2Proof/WellFormed.lean ====
section
/-! DEFINITION. Which terms of `Instr` are operations of the block. Most operand ranges are in the operand types; what is
left is the operand of DATA, "every byte that is not SYNC" (R91), and the set of cells a critical section locks (R262). -/

namespace Sys2Proof

/-- The operand of DATA is in 0x00..0xFE (R91, R202). -/
def payloadOk (d : Byte) : Bool := d != 0xFF#8

/-- `lock(S)` names a set of cells: at least one, none twice (R262). -/
def lockOk : LockOp → Bool
  | .enter cells => !cells.isEmpty && decide cells.Nodup
  | .leave => true

/-- A term of `Instr` is an operation of the block. -/
def wellFormed : Instr → Bool
  | .data d => payloadOk d
  | .lock _ op => lockOk op
  | .sync | .rxByte | .noticeChange | .displayTick | .frameSwap | .saverTick | .reset | .boot | .drvInit => true
  | .sendRow _ _ | .shiftByte _ | .setLine _ _ | .pulseSck | .pulseLat | .delayMs _ => true
  | .gammaCorrect _ | .colorGamma _ | .colorMul _ _ | .colorDiv _ _ => true
  | .imgSolid _ | .imgGradient _ | .imgIndexRd _ _ _ | .imgIndexWr _ _ _ _ => true
  | .imgByteRd _ _ | .imgByteWr _ _ _ | .imgRow _ _ | .setPixel _ _ _ _ | .canvasSize => true
  | .poolAlloc _ _ | .poolFree _ _ | .nextReplace _ _ | .nextTake _ | .halt _ => true

end Sys2Proof
end

