-- ==== Sys2Proof/Decode.lean ====
section
/-! DEFINITION. The one encoding of the block, RXBYTE (spec/30_encoding.md R91): decoder, encoder, and the host's view of
an opcode-table word. -/

namespace Sys2Proof

/-- A row of the encoding table of R91: a byte b belongs to the row when `b AND mask = value`. -/
structure BytePattern where
  value : Byte
  mask : Byte
deriving DecidableEq, Repr

/-- The byte belongs to the row. -/
def BytePattern.holds (p : BytePattern) (b : Byte) : Bool := b &&& p.mask == p.value

/-- SYNC: `11111111` (R91). -/
def syncPattern : BytePattern := ⟨0xFF#8, 0xFF#8⟩

/-- DATA: the union of the eight patterns `0ddddddd` .. `11111110` (R91). -/
def dataPatterns : List BytePattern :=
  [⟨0x00#8, 0x80#8⟩, ⟨0x80#8, 0xC0#8⟩, ⟨0xC0#8, 0xE0#8⟩, ⟨0xE0#8, 0xF0#8⟩,
   ⟨0xF0#8, 0xF8#8⟩, ⟨0xF8#8, 0xFC#8⟩, ⟨0xFC#8, 0xFE#8⟩, ⟨0xFE#8, 0xFF#8⟩]

/-- Why bytes are not an operation. -/
inductive DecodeError where
  /-- There is no byte to decode: every byte by itself is an operation (R99, R100). -/
  | noByte
deriving DecidableEq, Repr

/-- "A decoder tests SYNC first; every byte that is not SYNC is DATA" (R91). -/
def decodeByte (b : Byte) : Instr := if syncPattern.holds b then .sync else .data b

/-- The operation at the head of a byte sequence and the rest of it; every byte is one complete operation (R100). -/
def decode : List Byte → Except DecodeError (Instr × List Byte)
  | [] => .error .noByte
  | b :: rest => .ok (decodeByte b, rest)

/-- All the operations of a byte sequence, in arrival order (R39, R100). -/
def decodeAll : List Byte → List Instr
  | [] => []
  | b :: rest => decodeByte b :: decodeAll rest

/-- The bytes of an operation; only SYNC and DATA have an encoding (R101). -/
def encode : Instr → Option (List Byte)
  | .sync => some [0xFF#8]
  | .data d => some [d]
  | .rxByte | .noticeChange | .displayTick | .frameSwap | .saverTick | .reset | .boot | .drvInit => none
  | .sendRow _ _ | .shiftByte _ | .setLine _ _ | .pulseSck | .pulseLat | .delayMs _ => none
  | .gammaCorrect _ | .colorGamma _ | .colorMul _ _ | .colorDiv _ _ => none
  | .imgSolid _ | .imgGradient _ | .imgIndexRd _ _ _ | .imgIndexWr _ _ _ _ => none
  | .imgByteRd _ _ | .imgByteWr _ _ _ | .imgRow _ _ | .setPixel _ _ _ _ | .canvasSize => none
  | .poolAlloc _ _ | .poolFree _ _ | .nextReplace _ _ | .nextTake _ | .lock _ _ | .halt _ => none

/-- The bytes of a sequence of operations; none if one of them has no encoding. -/
def encodeAll : List Instr → Option (List Byte)
  | [] => some []
  | i :: is =>
    match encode i, encodeAll is with
    | some bs, some rest => some (bs ++ rest)
    | _, _ => none

/-- The bytes of an opcode-table word of `nbits` bits: the longest operation is one byte, whose bit 0 is the word's bit 0;
the bits from `nbits` on are 0. -/
def tableBytes (nbits w : Nat) : List Byte := [BitVec.ofNat 8 (w % 2 ^ nbits)]

/-- The operation the decoder reads from an opcode-table word. The table gives the two encoded operations 8 bits and the
others none. -/
def decodeTableWord (nbits w : Nat) : Option Instr :=
  if nbits = 8 then
    match decode (tableBytes nbits w) with
    | .ok (i, _) => some i
    | .error _ => none
  else none

end Sys2Proof
end

