-- ==== Sys2Proof/Config.lean ====
section
/-! DEFINITION. The parameters of the block (spec/00_scope.md R10, R11): the fixed ones, the ones the spec decides, and
the open ones, which are opaque constants: nothing can be proved of their values. -/

namespace Sys2Proof

/-- The levels of the 13 output lines (R30). -/
structure Lines where
  sb : Level
  lat : Level
  rst : Level
  sck : Level
  sda : Level
  rows : Vector Level 8
deriving DecidableEq, Repr

/-- What the doubling of GAMMA_CORRECT does above 255 (R122, D3). -/
inductive OverflowPolicy where
  | saturate
  | wrap
deriving DecidableEq, Repr

namespace Config

/-- FRAME_HZ, nominal: no rule depends on it (R10, R313). -/
def frameHz : Nat := 60
/-- DISP_HZ, nominal: no rule depends on it (R10, R271). -/
def dispHz : Nat := 480
/-- SAVER_PERIOD_MS, nominal and approximate: no rule depends on it (R10, R271). -/
def saverPeriodMs : Nat := 60
/-- ROWS (R10). -/
def rows : Nat := 8
/-- COLS (R10). -/
def cols : Nat := 8
/-- CHANNELS (R10). -/
def channels : Nat := 3
/-- IMG_BYTES, the length of `Image` (R10). -/
def imgBytes : Nat := rows * cols * channels
/-- ROW_BYTES (R10). -/
def rowBytes : Nat := cols * channels
/-- ROW_BITS (R10). -/
def rowBits : Nat := rowBytes * 8
/-- POOL_CAP, the number of values of `Slot` (R10). -/
def poolCap : Nat := 3
/-- SYNC_BYTE (R10). -/
def syncByte : Byte := 0xFF#8
/-- N_CTRL_LINES (R10). -/
def nCtrlLines : Nat := 5
/-- N_ROW_LINES (R10). -/
def nRowLines : Nat := 8
/-- SAVER_Y, the vertical row of the glyph in SAVER_FRAME, which the external renderer draws (R10, R239). -/
def saverY : Nat := 7
/-- RST_DELAY_MS (R10). -/
def rstDelayMs : Nat := 100
/-- BANK0_PULSES (R10). -/
def bank0Pulses : Nat := 144
/-- OFFSET_INIT (R10). -/
def offsetInit : Int := 30
/-- OFFSET_MIN (R10). -/
def offsetMin : Int := -120
/-- DEACT_AFTER_PIXEL (R10, R183, D18; log 21). -/
def deactAfterPixel : Nat := 5

/-- GAMMA_OVERFLOW (R11, R122, D3; log 9). -/
def gammaOverflow : OverflowPolicy := .saturate
/-- SCK_IDLE (R11, R177, D5; log 10). -/
def sckIdle : Level := false
/-- LAT_IDLE (R11, R178, D5; log 10). -/
def latIdle : Level := true
/-- LINES_POR, the levels of the 13 lines before DRV_INIT (R11, R37, D6; log 11). -/
def linesPor : Lines :=
  { sb := true, lat := latIdle, rst := false, sck := sckIdle, sda := false, rows := Vector.replicate 8 false }
/-- CNT_W, the width of the change counter in bits (R11, R28, D9; log 12). -/
abbrev cntW : Nat := 32
/-- GRAD_DIV(row, col) (R11, R141, D19; log 22). -/
def gradDiv (row col : Nat) : Nat := 1 + row * row + col

/-- GAMMA_LUT: OPEN (R121, D4; log 8). -/
opaque gammaLut : Byte → Byte
/-- The bytes of INIT_CUR_IMAGE: OPEN (R11, D10; log 14). -/
opaque initCurByte : Nat → Byte
/-- The bytes of INIT_ASM_IMAGE: OPEN (R11, D10; log 14). -/
opaque initAsmByte : Nat → Byte
/-- The bytes of INIT_SPARE_IMAGE: OPEN (R11, D10; log 14). -/
opaque initSpareByte : Nat → Byte
/-- The bytes of ASM_FILL: OPEN (R11, D12; log 14). -/
opaque asmFillByte : Nat → Byte
/-- The bytes of SAVER_FRAME(offset): OPEN (R239, D22; log 25). -/
opaque saverByte : Int → Nat → Byte
/-- The byte at an address of the arena at OFF, before BOOT: "unspecified", "any value" (R37; log 7). The first argument tells
one RESET from another. -/
opaque offByte : Nat → Nat → Byte
/-- ALLOC_CHOICE: which of several free slots the n-th free choice takes: any (R161, D11; log 15). -/
opaque allocChoice : Nat → Nat
/-- Whether DISP goes first at the n-th free choice, when DISP and SAVER are both due: either (R258, D13; log 16). -/
opaque dispFirst : Nat → Bool

/-- The image whose byte k is `f k`. -/
def imageOf (f : Nat → Byte) : Image := Vector.ofFn fun k => f k.val

/-- INIT_CUR_IMAGE (R11, D10). -/
def initCurImage : Image := imageOf initCurByte
/-- INIT_ASM_IMAGE (R11, D10). -/
def initAsmImage : Image := imageOf initAsmByte
/-- INIT_SPARE_IMAGE (R11, D10). -/
def initSpareImage : Image := imageOf initSpareByte
/-- ASM_FILL (R11, D12). -/
def asmFill : Image := imageOf asmFillByte
/-- SAVER_FRAME(o), a function of the offset alone (R239, D22). -/
def saverFrame (o : Int) : Image := imageOf (saverByte o)

end Config

end Sys2Proof
end

