-- ==== Sys2Proof/Machine/State.lean ====
section
/-! DEFINITION. The state of the block: every cell of spec/10_state.md R20, the continuation stack of R36 (c), and the
model's own cells (INVENTORY.md, "State"). Plain data throughout. -/

namespace Sys2Proof.Machine

/-- The arena as (address, byte) pairs: byte k of slot s has the address `192*s + k` (R23, R60). Addresses rise strictly
(`Memory.wf`). An address that is not listed has no value; from reset on every address of the arena is listed (log 7). -/
abbrev Memory := List Host.Cell

/-- The deframer's state; the cursor is in 0..191 between activations (R26). -/
inductive RxState where
  | awaitingSync
  | filling (cursor : Fin 192)
deriving DecidableEq, Repr

/-- What the block as a whole is doing (R32). -/
inductive Phase where
  | off
  | init
  | run
  | halted
deriving DecidableEq, Repr

/-- One primitive step of an activation, the grain at which a preemption can fall (R258, R259). Work that nothing can
preempt is one step: a critical section of ceiling 3 (R262). -/
inductive Micro where
  /-- SEND_ROW's first step: `g[0..7]` from row `row` of the current image (R182 step 1, R221). -/
  | loadRow
  /-- `SetLine(SDA, v[k])` for channel ch of `g[i]` (R181, R182 step 2). -/
  | bit (i : Fin 8) (ch : Channel) (k : Nat)
  /-- One write of a line, or a delay (R176, R179). -/
  | event (e : LineEvent)
  /-- The advance of the row index (R222). -/
  | advanceRow
  /-- FRAME_SWAP if the row index has returned to 0, one critical section (R223, R262). -/
  | swapAtWrap
  /-- The whole test and branch of SAVER_TICK, one critical section (R235, R262). -/
  | saverSection
  /-- Entering a critical section (R262). -/
  | lockEnter (cells : List Shared)
  /-- The increment of the change counter (R206). -/
  | bumpChanges
  /-- Leaving a critical section (R262). -/
  | lockLeave
  /-- BOOT's assignments to the cells (R291). -/
  | bootCells
  /-- BOOT's end: `phase <- RUN` (R291). -/
  | bootDone
deriving DecidableEq, Repr

/-- An activation in progress: its agent, the working colours `g[0..7]` (R35; before SEND_ROW writes them, log 47), and what it
has still to do (R36 (c), R259). -/
structure Activation where
  agent : Agent
  g : RowPixels
  todo : List Micro
deriving DecidableEq, Repr

/-- The moves of ENV (R264, R290). -/
inductive EnvMove where
  | deliver (b : Byte)
  | dispDue
  | saverDue
  | reset
deriving DecidableEq, Repr

/-- The stimulus, the model's own (R102, R264; log 1, log 2). -/
inductive Stim where
  /-- ENV makes a move. -/
  | env (m : EnvMove)
  /-- The block makes one step at primitive-step grain (R258). -/
  | tick
  /-- The block runs, by whole activations, until it is quiescent (R102). -/
  | settle
deriving DecidableEq, Repr

/-- What the last value-returning operation returned, the model's own (log 4). -/
inductive Ret where
  | nothing
  | byte (b : Byte)
  | color (c : Color)
  | row (px : RowPixels)
  | image (img : Image)
  | handle (h : Slot)
  | optHandle (h : Option Slot)
  | size (width height : Nat)
deriving DecidableEq, Repr

/-- The state of the block. -/
structure State where
  /-- The arena (R23). -/
  mem : Memory
  /-- The free list, a set of slots as a strictly rising list (R24, R160). -/
  free : List Slot
  /-- The next-image cell (R24, R76). -/
  next : Option Slot
  /-- ReceiveByte's assembly buffer; none before BOOT (R24, R37). -/
  asm : Option Slot
  /-- Display's current buffer; none before BOOT (R24, R37). -/
  cur : Option Slot
  /-- The deframer (R26). -/
  rxState : RxState
  /-- The row the next display tick renders (R27). -/
  row : Fin 8
  /-- The change counter (R28). -/
  changes : BitVec Config.cntW
  /-- The screensaver's last observed counter (R29). -/
  lastSeen : BitVec Config.cntW
  /-- The screensaver's offset (R29). -/
  offset : Int
  /-- The 13 output lines (R30). -/
  lines : Lines
  /-- Received bytes not yet consumed, oldest first (R39). -/
  rxFifo : List Byte
  /-- The display tick is due (R31). -/
  dispDue : Bool
  /-- The screensaver tick is due (R31). -/
  saverDue : Bool
  /-- Completed frames whose NOTICE_CHANGE has not run (R31). -/
  noticePending : Nat
  /-- What the block is doing (R32). -/
  phase : Phase
  /-- The cause of the ContractViolation that halted the block (R32). -/
  fatal : Option Cause
  /-- Every line event since reset, oldest first (R33). -/
  trace : List LineEvent
  /-- The activations in progress, innermost first (R36 (c), R259). -/
  acts : List Activation
  /-- Handles in local variables of agents (R24, R163; log 5). -/
  held : List (Agent × Slot)
  /-- Open critical sections, innermost first (R262; log 6). -/
  locks : List (Agent × List Shared)
  /-- The model's own: the last returned value (log 4). -/
  ret : Ret
  /-- The model's own: the stimulus still to come (log 1). -/
  stim : List Stim
  /-- The model's own: the free choices made and the RESETs taken so far (log 7, log 15, log 16). -/
  draws : Nat
deriving DecidableEq, Repr

/-- Why the machine stops with a fault. -/
inductive Fault where
  /-- The block is in phase HALTED and no RESET is to come: no agent has a step (R253, U9). Raised by the step and by every
  operation but RESET. Safe. -/
  | halted (cause : Option Cause)
  /-- A byte was read that the memory does not list. No memory that reset leads to lacks a byte of the arena. Raised by MemRead.
Safe (log 7). -/
  | unwrittenByte (h : Slot)
deriving DecidableEq, Repr

/-- Why an operation is refused: the spec gives it no meaning there. -/
inductive Refusal where
  /-- The instruction has no meaning in the model. Raised by a refused arm of exec only. Safe. -/
  | notModelled (mnemonic : String)
  /-- An activation was started without its trigger (R200, R206, R220, R235, R291). Raised by the five activations. Safe
  (log 37). -/
  | notTriggered
  /-- A zero divisor, a NaN or an infinity: "a model refuses them" (R127). Raised by COLOR_MUL and COLOR_DIV. Safe (log 26). -/
  | scalarUndefined
  /-- DATA with the operand 0xFF, which is SYNC and no DATA (R91, R103). Raised by DATA. Safe (log 38). -/
  | notPayload
  /-- A critical section was left that the agent has not open innermost (R262). Raised by LOCK. Safe (log 41). -/
  | noSection
deriving DecidableEq, Repr

/-- An outcome of this machine. -/
abbrev Result := Host.Outcome State Fault Refusal

/-- The arena at OFF: every byte is a free value, "any value" (R37; log 7). Irreducible, so that its 576 cells are not written out
in a proof: `read_offArena` and `wf_offArena` say what it is. -/
@[irreducible] def offArena (n : Nat) : Memory := (List.range 576).map fun a => (a, Config.offByte n a)

/-- The machine right after reset: the column "at OFF" of R37. -/
def State.reset : State where
  mem := offArena 0
  free := [0, 1, 2]
  next := none
  asm := none
  cur := none
  rxState := .awaitingSync
  row := 0
  changes := 0
  lastSeen := 0
  offset := Config.offsetInit
  lines := Config.linesPor
  rxFifo := []
  dispDue := false
  saverDue := false
  noticePending := 0
  phase := .off
  fatal := none
  trace := []
  acts := []
  held := []
  locks := []
  ret := .nothing
  stim := []
  draws := 0

end Sys2Proof.Machine
end

