-- ==== Sys2Proof/Machine/Ops.lean ====
section
/-! DEFINITION. The shared operations: how an operation ends, taking the one exception and returning from it, the arena,
ownership of handles, critical sections, output lines. -/

namespace Sys2Proof.Machine

/-- How an operation ends: with a value, with the ContractViolation taken, with a fault, or refused. -/
inductive Res (α : Type) where
  | ok (a : α) (s : State)
  | raised (s : State)
  | fault (f : Fault)
  | refused (r : Refusal)
deriving Repr

/-- Do one operation, then another with its value; after a raise "none of its later steps happen" (R252). -/
def Res.bind {α β : Type} (m : Res α) (k : α → State → Res β) : Res β :=
  match m with
  | .ok a s => k a s
  | .raised s => .raised s
  | .fault f => .fault f
  | .refused r => .refused r

/-- The outcome of an operation; a raise is a next state, the halted block (R252). -/
def Res.outcome {α : Type} (m : Res α) : Result :=
  match m with
  | .ok _ s => .next s
  | .raised s => .next s
  | .fault f => .fault f
  | .refused r => .refused r

/-! ## The exception and the return from it -/

/-- The code of a cause, a label of the spec (R251, D26). -/
def Cause.code : Cause → Nat
  | .indexOutOfRange => 1
  | .poolExhausted => 2
  | .rowOutOfRange => 3
  | .badHandle => 4

/-- TAKING THE EXCEPTION: `raise ContractViolation(cause)`. The cause is recorded, the block halts, every activation in
progress is abandoned with its critical sections; every other cell and every line keeps its value (R252, R259). -/
def State.raiseViolation (c : Cause) (s : State) : State :=
  { s with fatal := some c, phase := .halted, acts := [], locks := [] }

/-- An operation that raises. -/
def raise {α : Type} (c : Cause) (s : State) : Res α := .raised (s.raiseViolation c)

/-- THE RETURN FROM IT: there is none but RESET (R253): every cell takes its value "at OFF" (R37, R290), the arena fresh
free values (log 7). The stimulus and the count of free choices are not cells of the block and go on (log 40). -/
def State.toReset (s : State) : State :=
  { State.reset with mem := offArena (s.draws + 1), stim := s.stim, draws := s.draws + 1 }

/-- In HALTED no agent of the block has a step (R253). The phases OFF and INIT do not keep an operation that is no activation from
having its effect when it is executed by itself; there the spec lets nothing run but BOOT, and this is the model's choice
(DESIGN CHOICE, log 48). -/
def live (s : State) (k : Result) : Result :=
  if s.phase = .halted then .fault (.halted s.fatal) else k

/-! ## The result register of the model -/

/-- The operation returns a value (log 4). -/
def State.withRet (r : Ret) (s : State) : State := { s with ret := r }

/-! ## The arena (R23, R60, R68) -/

/-- The address of byte k of slot h: a slot has 192 bytes (R23). -/
def slotAddr (h : Slot) (k : Nat) : Nat := 192 * h.val + k

/-- One byte of the arena; none where nothing is listed (log 7). -/
def Memory.read : Memory → Nat → Option Byte
  | [], _ => none
  | c :: m, a => if c.1 = a then some c.2 else Memory.read m a

/-- n bytes from address a on, lowest first (R68); none if one of them has no value. -/
def Memory.readBlock (m : Memory) : Nat → Nat → Option (List Byte)
  | _, 0 => some []
  | a, n + 1 =>
    match Memory.read m a, Memory.readBlock m (a + 1) n with
    | some b, some bs => some (b :: bs)
    | _, _ => none

/-- Consecutive cells from address a on. -/
def Memory.cells : Nat → List Byte → Memory
  | _, [] => []
  | a, b :: bs => (a, b) :: Memory.cells (a + 1) bs

/-- Write consecutive bytes from address a on, lowest first (R68): the other cells stay. -/
def Memory.write (m : Memory) (a : Nat) (bs : List Byte) : Memory :=
  m.filter (fun c => c.1 < a) ++ Memory.cells a bs ++ m.filter (fun c => a + bs.length ≤ c.1)

/-- Addresses rise strictly from n on. -/
def Memory.risingFrom : Nat → Memory → Bool
  | _, [] => true
  | n, c :: m => decide (n ≤ c.1) && Memory.risingFrom (c.1 + 1) m

/-- The canonical form: addresses rise strictly and lie in the arena, 3 slots of 192 bytes (R23). No unlisted address reads
as a value, so no entry can equal what an unlisted address reads as. -/
def Memory.wf (m : Memory) : Bool := Memory.risingFrom 0 m && m.all (fun c => decide (c.1 < 576))

/-! ## Ownership of handles (R24, R25, R163, R164) -/

/-- The agent owns the handle: in a local variable, or RX in `asm`, or DISP in `cur` (R68, R268). -/
def owns (who : Agent) (h : Slot) (s : State) : Bool :=
  s.held.contains (who, h) || (who == .rx && s.asm == some h) || (who == .disp && s.cur == some h)

/-- A handle comes into a local variable of the agent. -/
def State.hold (who : Agent) (h : Slot) (s : State) : State := { s with held := (who, h) :: s.held }

/-- A handle leaves a local variable of the agent. -/
def State.unhold (who : Agent) (h : Slot) (s : State) : State := { s with held := s.held.erase (who, h) }

/-- A handle moves out of the cell in which the agent owns it: "the source cell is left without it" (R25). -/
def State.release (who : Agent) (h : Slot) (s : State) : State :=
  if s.held.contains (who, h) then s.unhold who h
  else if who = .rx ∧ s.asm = some h then { s with asm := none }
  else if who = .disp ∧ s.cur = some h then { s with cur := none }
  else s

/-- `MemRead((h,k), n)` by an agent: the bounds, then the ownership (R68, D28, D29). -/
def memRead (who : Agent) (h : Slot) (k n : Nat) (s : State) : Res (List Byte) :=
  if 192 < k + n then raise .indexOutOfRange s
  else if owns who h s then
    match Memory.readBlock s.mem (slotAddr h k) n with
    | some bs => .ok bs s
    | none => .fault (.unwrittenByte h)
  else raise .badHandle s

/-- `MemWrite((h,k), n, bs)` by an agent, n the number of bytes: the bounds, then the ownership (R68, D28, D29). -/
def memWrite (who : Agent) (h : Slot) (k : Nat) (bs : List Byte) (s : State) : Res Unit :=
  if 192 < k + bs.length then raise .indexOutOfRange s
  else if owns who h s then .ok () { s with mem := Memory.write s.mem (slotAddr h k) bs }
  else raise .badHandle s

/-! ## Critical sections (R262) -/

/-- Entering `lock(S)`. -/
def State.enterLock (who : Agent) (cells : List Shared) (s : State) : State :=
  { s with locks := (who, cells) :: s.locks }

/-- Leaving the innermost section. -/
def State.leaveLock (s : State) : State := { s with locks := s.locks.tail }

/-- `lock(S) { body }` by an agent: a section never waits and never fails (R262). -/
def critical {α : Type} (who : Agent) (cells : List Shared) (body : State → Res α) (s : State) : Res α :=
  (body (s.enterLock who cells)).bind fun a s' => .ok a s'.leaveLock

/-! ## The output lines (R30, R33, R176) -/

/-- The levels after one event: `L <- v`; a delay holds the lines (R176, R179). -/
def Lines.after (ls : Lines) : LineEvent → Lines
  | .set .sb v => { ls with sb := v }
  | .set .lat v => { ls with lat := v }
  | .set .rst v => { ls with rst := v }
  | .set .sck v => { ls with sck := v }
  | .set .sda v => { ls with sda := v }
  | .set (.row i) v => { ls with rows := ls.rows.set i.val v i.isLt }
  | .delay _ => ls

/-- The level of a line. -/
def Lines.level (ls : Lines) : Line → Level
  | .sb => ls.sb
  | .lat => ls.lat
  | .rst => ls.rst
  | .sck => ls.sck
  | .sda => ls.sda
  | .row i => ls.rows[i]

/-- The levels after a sequence of events. -/
def Lines.afterAll (ls : Lines) (evs : List LineEvent) : Lines := evs.foldl Lines.after ls

/-- The block performs a sequence of line events: the lines take the levels, the trace grows by the events (R176, R179,
R33). -/
def State.emit (evs : List LineEvent) (s : State) : State :=
  { s with lines := Lines.afterAll s.lines evs, trace := s.trace ++ evs }

end Sys2Proof.Machine
end

