-- ==== Sys2Proof/Machine/Operands.lean ====
section
/-! DEFINITION. Operand forms and the arithmetic on them: image operands by value or by slot, the layout of an image,
scalars, the clamps of spec/00_scope.md R13. -/

namespace Sys2Proof.Machine

/-! ## Numbers (R12, R13) -/

/-- `sat8(x) = min(max(x, 0), 255)` as a byte (R13). -/
def sat8 (x : Int) : Byte := BitVec.ofInt 8 (min (max x 0) 255)

/-- `trunc(x)`, the integer part, rounding toward zero (R13). -/
def trunc (q : Rat) : Int := q.num.tdiv q.den

/-- A byte as a rational. -/
def ratOf (b : Byte) : Rat := (b.toNat : Rat)

/-- An index is in 0..7 (R142). -/
def inEight (x : Int) : Bool := decide (0 ≤ x) && decide (x ≤ 7)

/-! ## The layout of an image (R61) -/

/-- The offset of the first byte of pixel (row, col): `3*(8*row+col)` (R61). -/
def pixelOffset (row col : Nat) : Nat := 3 * (8 * row + col)

/-- The three bytes of a Color, in the order r, g, b (R61, R120). -/
def colorBytes (c : Color) : List Byte := [c.r, c.g, c.b]

/-- The j-th Color of a byte sequence (R61). -/
def colorAt (bs : List Byte) (j : Nat) : Color :=
  ⟨bs.getD (3 * j) 0, bs.getD (3 * j + 1) 0, bs.getD (3 * j + 2) 0⟩

/-- The eight Colors of the 24 bytes of a row (R145). -/
def rowOfBytes (bs : List Byte) : RowPixels := Vector.ofFn fun i => colorAt bs i.val

/-- The image whose pixel (row, col) is `f row col` (R61). -/
def imageOfPixels (f : Nat → Nat → Color) : Image :=
  Vector.ofFn fun k =>
    (f (k.val / 24) (k.val % 24 / 3)).channel
      (if k.val % 3 = 0 then .r else if k.val % 3 = 1 then .g else .b)

/-- An image with the bytes from offset k on replaced. -/
def splice (img : Image) (k : Nat) (bs : List Byte) : Image :=
  Vector.ofFn fun i => if k ≤ i.val ∧ i.val < k + bs.length then bs.getD (i.val - k) 0 else img[i]

/-! ## Image operands (log 42) -/

/-- n bytes of an image operand from offset k on. -/
def imgRead (img : ImgRef) (k n : Nat) (s : State) : Res (List Byte) :=
  match img with
  | .value v => if 192 < k + n then raise .indexOutOfRange s else .ok ((v.toList.drop k).take n) s
  | .slot who h => memRead who h k n s

/-- Bytes written into an image operand from offset k on: into the slot, or into the value, which is then the result. -/
def imgWrite (img : ImgRef) (k : Nat) (bs : List Byte) (s : State) : Res Unit :=
  match img with
  | .value v =>
    if 192 < k + bs.length then raise .indexOutOfRange s else .ok () (s.withRet (.image (splice v k bs)))
  | .slot who h => memWrite who h k bs s

end Sys2Proof.Machine
end

