-- ==== Sys2Proof/Machine/Pool.lean ====
section
/-! DEFINITION. The buffer pool and the next-image cell (spec/42_pool.md). -/

namespace Sys2Proof.Machine

/-- The free list with one more slot; the list rises strictly, so that equal sets are equal lists (R160). -/
def insertFree (h : Slot) : List Slot → List Slot
  | [] => [h]
  | x :: xs => if h < x then h :: x :: xs else if h = x then x :: xs else x :: insertFree h xs

/-- Which free slot POOL_ALLOC takes, and the free choices made after it: the only one, or any of several (R161, D11;
log 15). -/
def chooseFree (s : State) : Option (Slot × Nat) :=
  match s.free with
  | [] => none
  | [h] => some (h, s.draws)
  | h :: hs => some ((h :: hs).getD (Config.allocChoice s.draws % (h :: hs).length) h, s.draws + 1)

/-- `POOL_ALLOC(init)`: a slot leaves the free list, takes the initial image and becomes the agent's (R161). -/
def poolAlloc (who : Agent) (init : Image) (s : State) : Res Slot :=
  match chooseFree s with
  | none => raise .poolExhausted s
  | some (h, draws) =>
    .ok h { s with
      free := s.free.erase h, draws := draws
      mem := Memory.write s.mem (slotAddr h 0) init.toList
      held := (who, h) :: s.held }

/-- `POOL_FREE(h)`: the agent's handle goes back to the free list; the slot's bytes stay (R162). A handle that is free
already, or that the agent does not own, is BadHandle (R164). -/
def poolFree (who : Agent) (h : Slot) (s : State) : Res Unit :=
  if owns who h s && !s.free.contains h then
    .ok () { s.release who h with free := insertFree h s.free }
  else raise .badHandle s

/-- `NEXT_REPLACE(h)`: the agent's handle becomes the pending image, the displaced one is freed (R166). -/
def nextReplace (who : Agent) (h : Slot) (s : State) : Res Unit :=
  if owns who h s && !s.free.contains h then
    match s.next with
    | none => .ok () { s.release who h with next := some h }
    | some o => poolFree who o (State.hold who o { s.release who h with next := some h })
  else raise .badHandle s

/-- `NEXT_TAKE()`: the pending handle, if any, becomes the agent's (R167). -/
def nextTake (who : Agent) (s : State) : Res (Option Slot) :=
  match s.next with
  | none => .ok none s
  | some h => .ok (some h) (State.hold who h { s with next := none })

/-- POOL_ALLOC (R161). Executed by itself it needs no open section, whoever the agent is (DESIGN CHOICE, log 39). -/
def execPoolAlloc (who : Agent) (init : Image) (s : State) : Result :=
  live s ((poolAlloc who init s).bind fun h s' => .ok () (s'.withRet (.handle h))).outcome

/-- POOL_FREE (R162). Executed by itself it needs no open section, whoever the agent is (DESIGN CHOICE, log 39). -/
def execPoolFree (who : Agent) (h : Slot) (s : State) : Result := live s (poolFree who h s).outcome

/-- NEXT_REPLACE, one critical section on `next` and the pool (R166). -/
def execNextReplace (who : Agent) (h : Slot) (s : State) : Result :=
  live s (critical who [.next, .pool] (nextReplace who h) s).outcome

/-- NEXT_TAKE, one critical section on `next` (R167). -/
def execNextTake (who : Agent) (s : State) : Result :=
  live s ((critical who [.next] (nextTake who) s).bind fun t s' => .ok () (s'.withRet (.optHandle t))).outcome

end Sys2Proof.Machine
end

