-- ==== Sys2Proof/Machine/Deframer.lean ====
section
/-! DEFINITION. The deframing engine ReceiveByte and NoticeChange (spec/44_deframer.md). -/

namespace Sys2Proof.Machine

/-- SYNC: "reset to FILLING(0), discarding any partial data" (R201). -/
def syncByte (s : State) : State := { s with rxState := .filling 0 }

/-- RX adopts a handle it holds as its assembly buffer. -/
def adoptAsm (h : Slot) (s : State) : State := { s.unhold .rx h with asm := some h }

/-- A frame is complete: publish, free what was displaced, then allocate, in one critical section; pend NoticeChange; wait for
the next sentinel (R204). -/
def completeFrame (s : State) : Res Unit :=
  (critical .rx [.next, .pool] (fun s =>
    match s.asm with
    | none => raise .badHandle s
    | some a =>
      (nextReplace .rx a s).bind fun _ s => (poolAlloc .rx Config.asmFill s).bind fun h s => .ok () (adoptAsm h s)) s).bind
    fun _ s => .ok () { s with noticePending := s.noticePending + 1, rxState := .awaitingSync }

/-- DATA(d): dropped while awaiting a sentinel (R202); stored at the cursor (R203); the byte that fills offset 191 completes
the frame (R204). -/
def dataByte (d : Byte) (s : State) : Res Unit :=
  match s.rxState with
  | .awaitingSync => .ok () s
  | .filling c =>
    match s.asm with
    | none => raise .badHandle s
    | some a =>
      (memWrite .rx a c.val [d] s).bind fun _ s =>
        if h : c.val < 191 then .ok () { s with rxState := .filling ⟨c.val + 1, by omega⟩ } else completeFrame s

/-- SYNC (R201). -/
def execSync (s : State) : Result := live s (.next (syncByte s))

/-- DATA (R202, R203, R204); 0xFF is no operand of it (R91). -/
def execData (d : Byte) (s : State) : Result :=
  live s (if payloadOk d then (dataByte d s).outcome else .refused .notPayload)

/-- RX_BYTE: one byte leaves `rx_fifo` and is SYNC or DATA (R200). Triggered by a byte in the queue, in phase RUN. -/
def execRxByte (s : State) : Result :=
  live s <|
    if s.phase = .run then
      match decode s.rxFifo with
      | .error .noByte => .refused .notTriggered
      | .ok (.data d, rest) => execData d { s with rxFifo := rest }
      | .ok (_, rest) => execSync { s with rxFifo := rest }
    else .refused .notTriggered

/-- `changes <- wrapN(changes + 1)` (R206). -/
def bumpCounter (s : State) : State := { s with changes := s.changes + 1 }

/-- NOTICE_CHANGE (R206). Triggered by a pending completion, in phase RUN. That no higher-priority actor is ready is left to the
dispatcher: executed by itself the operation does not check it (DESIGN CHOICE, log 37). -/
def execNoticeChange (s : State) : Result :=
  live s <|
    if s.phase = .run ∧ 0 < s.noticePending then
      (critical .notice [.changes] (fun s => .ok () (bumpCounter s))
        { s with noticePending := s.noticePending - 1 }).outcome
    else .refused .notTriggered

end Sys2Proof.Machine
end

