-- ==== Sys2Proof/Machine/Saver.lean ====
section
/-! DEFINITION. The screensaver (spec/46_screensaver.md). -/

namespace Sys2Proof.Machine

/-- The offset update: one less, and 30 again below -120 (R238). -/
def nextOffset (o : Int) : Int := if o - 1 < Config.offsetMin then Config.offsetInit else o - 1

/-- A handle that was taken out of `next`, if any, is freed (R236). -/
def freeTaken (t : Option Slot) (s : State) : Res Unit :=
  match t with
  | none => .ok () s
  | some o => poolFree .saver o s

/-- The idle branch: free what is pending, allocate the frame for the present offset, install it, update the offset
(R236). -/
def saverIdle (s : State) : Res Unit :=
  (nextTake .saver s).bind fun t s =>
    (freeTaken t s).bind fun _ s =>
      (poolAlloc .saver (Config.saverFrame s.offset) s).bind fun h s =>
        .ok () { s.unhold .saver h with next := some h, offset := nextOffset s.offset }

/-- The active branch: take over the counter and restart the offset, no frame (R237). -/
def saverActive (s : State) : State := { s with lastSeen := s.changes, offset := Config.offsetInit }

/-- The whole test and the whole chosen branch, one critical section (R235). -/
def saverSection (s : State) : Res Unit :=
  critical .saver [.changes, .next, .pool]
    (fun s => if s.changes = s.lastSeen then saverIdle s else .ok () (saverActive s)) s

/-- SAVER_TICK (R235). Triggered by `saver_due`, in phase RUN. -/
def execSaverTick (s : State) : Result :=
  live s <|
    if s.phase = .run ∧ s.saverDue = true then (saverSection { s with saverDue := false }).outcome
    else .refused .notTriggered

end Sys2Proof.Machine
end

