-- ==== Sys2Proof/Machine/ColorGamma.lean ====
section
/-! DEFINITION. Colour arithmetic and gamma correction (spec/40_color_gamma.md). Pure functions; as operations they return
their value in the model's result cell (log 4). -/

namespace Sys2Proof.Machine

/-- The doubled curve value under an overflow policy: `sat8(2x)`, or `2x mod 256` for the rejected one (R122). -/
def doubled (p : OverflowPolicy) (x : Byte) : Byte :=
  match p with
  | .saturate => sat8 (2 * (x.toNat : Int))
  | .wrap => BitVec.ofNat 8 (2 * x.toNat)

/-- GAMMA_CORRECT over a given curve and policy (R122). -/
def gammaWith (p : OverflowPolicy) (lut : Byte → Byte) (v : Byte) : Byte := doubled p (lut v)

/-- `GAMMA_CORRECT(v) = sat8(2 * GAMMA_LUT[v])` (R122). -/
def gamma (v : Byte) : Byte := gammaWith Config.gammaOverflow Config.gammaLut v

/-- Each channel by the same function, independently (R123, R128). -/
def Color.map (f : Byte → Byte) (c : Color) : Color := ⟨f c.r, f c.g, f c.b⟩

/-- `COLOR_GAMMA(c)` (R123). -/
def gammaColor (c : Color) : Color := Color.map gamma c

/-- `sat8(trunc(channel * f))` for each channel, in exact arithmetic (R125). -/
def scaleMul (c : Color) (q : Rat) : Color := Color.map (fun v => sat8 (trunc (ratOf v * q))) c

/-- `sat8(trunc(channel / f))` for each channel, in exact arithmetic (R126). -/
def scaleDiv (c : Color) (q : Rat) : Color := Color.map (fun v => sat8 (trunc (ratOf v / q))) c

/-- GAMMA_CORRECT (R122). -/
def execGammaCorrect (v : Byte) (s : State) : Result := live s (.next (s.withRet (.byte (gamma v))))

/-- COLOR_GAMMA (R123). -/
def execColorGamma (c : Color) (s : State) : Result := live s (.next (s.withRet (.color (gammaColor c))))

/-- COLOR_MUL (R125); a NaN or an infinity is refused (R127). -/
def execColorMul (c : Color) (f : Scalar) (s : State) : Result :=
  live s <| match f with
    | .rat q => .next (s.withRet (.color (scaleMul c q)))
    | .nan | .posInf | .negInf => .refused .scalarUndefined

/-- COLOR_DIV (R126); zero, a NaN or an infinity is refused (R127). -/
def execColorDiv (c : Color) (f : Scalar) (s : State) : Result :=
  live s <| match f with
    | .rat q => if q = 0 then .refused .scalarUndefined else .next (s.withRet (.color (scaleDiv c q)))
    | .nan | .posInf | .negInf => .refused .scalarUndefined

end Sys2Proof.Machine
end

