-- ==== Sys2Proof/Machine/Driver.lean ====
section
/-! DEFINITION. The matrix driver (spec/43_matrix_driver.md): line micro-operations, DRV_INIT, the row serializer. The event
sequences are lists; performing one is `State.emit`. -/

namespace Sys2Proof.Machine

/-- `PulseSCK()`: away from the idle level and back (R177). -/
def sckPulse : List LineEvent := [.set .sck (!Config.sckIdle), .set .sck Config.sckIdle]

/-- `PulseLAT()` (R178). -/
def latPulse : List LineEvent := [.set .lat (!Config.latIdle), .set .lat Config.latIdle]

/-- The bit numbers of a byte in shift order, "MSB-first" (R181). -/
def msbFirst : List Nat := [7, 6, 5, 4, 3, 2, 1, 0]

/-- The steps that send one byte: set the data line, then pulse the clock, for k = 7 down to 0 (R181). The step that sets
the data line to bit k is `sda k`. -/
def byteSeq {β : Type} (sda : Nat → β) (ev : LineEvent → β) : List β :=
  msbFirst.flatMap fun k => sda k :: sckPulse.map ev

/-- The pixel indices in shift order, "reverse index order (7 down to 0)" (R182). -/
def pixelOrder : List (Fin 8) := [7, 6, 5, 4, 3, 2, 1, 0]

/-- The channels in shift order: Blue, Green, Red (R182). -/
def wireOrder : List Channel := [.b, .g, .r]

/-- The line steps of `SEND_ROW(row, …)` after the gamma correction (R182 steps 2 to 4): the pixels, the deactivation of
the previous row after pixel 5 (R183), the latch, the activation (R184). The step that sets the data line to bit k of
channel ch of `g[i]` is `sda i ch k`. -/
def rowSeq {β : Type} (row : Fin 8) (sda : Fin 8 → Channel → Nat → β) (ev : LineEvent → β) : List β :=
  (pixelOrder.flatMap fun i =>
    (wireOrder.flatMap fun ch => byteSeq (sda i ch) ev) ++
      (if i.val = Config.deactAfterPixel then [ev (.set (.row (row + 7)) false)] else [])) ++
  latPulse.map ev ++ [ev (.set (.row row) true)]

/-- The 24 events of `SHIFT_BYTE(v)` (R181). -/
def byteEvents (v : Byte) : List LineEvent := byteSeq (fun k => .set .sda (v.getLsbD k)) id

/-- The 580 events of SEND_ROW, of the gamma-corrected colours `g[0..7]` (R182, R186). -/
def rowEvents (row : Fin 8) (g : RowPixels) : List LineEvent :=
  rowSeq row (fun i ch k => .set .sda ((g[i].channel ch).getLsbD k)) id

/-- `n` clock pulses. -/
def sckPulses : Nat → List LineEvent
  | 0 => []
  | n + 1 => sckPulse ++ sckPulses n

/-- The 296 events of DRV_INIT (R180, R186). -/
def drvInitEvents : List LineEvent :=
  ([.set .rst false, .delay Config.rstDelayMs, .set .rst true, .set .sb false, .set .sda true] : List LineEvent) ++
  sckPulses Config.bank0Pulses ++ latPulse ++ ([.set .sb true] : List LineEvent)

/-- `SEND_ROW(row, px)`: a row outside 0..7 is fatal before any line is written (R182, R187, D17). -/
def sendRow (row : Int) (px : RowPixels) (s : State) : Res Unit :=
  if 0 ≤ row ∧ row ≤ 7 then .ok () (s.emit (rowEvents (Fin.ofNat 8 row.toNat) (px.map gammaColor)))
  else raise .rowOutOfRange s

/-- SET_LINE (R176). -/
def execSetLine (l : Line) (v : Level) (s : State) : Result := live s (.next (s.emit [.set l v]))

/-- PULSE_SCK (R177). -/
def execPulseSck (s : State) : Result := live s (.next (s.emit sckPulse))

/-- PULSE_LAT (R178). -/
def execPulseLat (s : State) : Result := live s (.next (s.emit latPulse))

/-- DELAY_MS: in the untimed model a trace event (R179). -/
def execDelayMs (n : Nat) (s : State) : Result := live s (.next (s.emit [.delay n]))

/-- SHIFT_BYTE (R181). -/
def execShiftByte (v : Byte) (s : State) : Result := live s (.next (s.emit (byteEvents v)))

/-- DRV_INIT (R180). -/
def execDrvInit (s : State) : Result := live s (.next (s.emit drvInitEvents))

/-- SEND_ROW (R182). -/
def execSendRow (row : Int) (px : RowPixels) (s : State) : Result := live s (sendRow row px s).outcome

end Sys2Proof.Machine
end

