-- ==== Sys2Proof/Machine/Image.lean ====
section
/-! DEFINITION. Image operations (spec/41_image.md). The two out-of-bounds policies are kept apart (R148): direct indexing
is fatal, the drawing interface discards. -/

namespace Sys2Proof.Machine

/-- `IMG_SOLID(c)`: all 64 pixels are c (R140). -/
def solidImage (c : Color) : Image := imageOfPixels fun _ _ => c

/-- `IMG_GRADIENT(c)`: pixel (row, col) is `COLOR_DIV(c, GRAD_DIV(row, col))` (R141). -/
def gradientImage (c : Color) : Image :=
  imageOfPixels fun row col => scaleDiv c ((Config.gradDiv row col : Nat) : Rat)

/-- IMG_SOLID (R140). -/
def execImgSolid (c : Color) (s : State) : Result := live s (.next (s.withRet (.image (solidImage c))))

/-- IMG_GRADIENT (R141). -/
def execImgGradient (c : Color) (s : State) : Result := live s (.next (s.withRet (.image (gradientImage c))))

/-- IMG_INDEX_RD: out of [0,7]×[0,7] is fatal (R142). -/
def indexRead (img : ImgRef) (row col : Int) (s : State) : Res Unit :=
  if inEight row && inEight col then
    (imgRead img (pixelOffset row.toNat col.toNat) 3 s).bind fun bs s' => .ok () (s'.withRet (.color (colorAt bs 0)))
  else raise .indexOutOfRange s

/-- IMG_INDEX_RD (R142). -/
def execImgIndexRd (img : ImgRef) (row col : Int) (s : State) : Result := live s (indexRead img row col s).outcome

/-- IMG_INDEX_WR: out of [0,7]×[0,7] is fatal and writes nothing (R143). -/
def indexWrite (img : ImgRef) (row col : Int) (c : Color) (s : State) : Res Unit :=
  if inEight row && inEight col then imgWrite img (pixelOffset row.toNat col.toNat) (colorBytes c) s
  else raise .indexOutOfRange s

/-- IMG_INDEX_WR (R143). -/
def execImgIndexWr (img : ImgRef) (row col : Int) (c : Color) (s : State) : Result :=
  live s (indexWrite img row col c s).outcome

/-- A flat offset is in 0..191 (R144, D29). -/
def offsetOk (k : Int) : Bool := decide (0 ≤ k) && decide (k ≤ 191)

/-- IMG_BYTE_RD (R144). -/
def byteRead (img : ImgRef) (k : Int) (s : State) : Res Unit :=
  if offsetOk k then (imgRead img k.toNat 1 s).bind fun bs s' => .ok () (s'.withRet (.byte (bs.getD 0 0)))
  else raise .indexOutOfRange s

/-- IMG_BYTE_RD (R144). -/
def execImgByteRd (img : ImgRef) (k : Int) (s : State) : Result := live s (byteRead img k s).outcome

/-- IMG_BYTE_WR (R144). -/
def byteWrite (img : ImgRef) (k : Int) (v : Byte) (s : State) : Res Unit :=
  if offsetOk k then imgWrite img k.toNat [v] s else raise .indexOutOfRange s

/-- IMG_BYTE_WR (R144). -/
def execImgByteWr (img : ImgRef) (k : Int) (v : Byte) (s : State) : Result := live s (byteWrite img k v s).outcome

/-- IMG_ROW: the 24 bytes at offsets `24*row ..`, as eight Colors (R145). -/
def rowRead (img : ImgRef) (row : Int) (s : State) : Res RowPixels :=
  if inEight row then (imgRead img (24 * row.toNat) 24 s).bind fun bs s' => .ok (rowOfBytes bs) s'
  else raise .indexOutOfRange s

/-- IMG_ROW (R145). -/
def execImgRow (img : ImgRef) (row : Int) (s : State) : Result :=
  live s ((rowRead img row s).bind fun px s' => .ok () (s'.withRet (.row px))).outcome

/-- SET_PIXEL: x is the column and y the row; out of bounds nothing happens (R146, D21). An image value is the result, changed
or not. -/
def drawPixel (img : ImgRef) (x y : Int) (c : Color) (s : State) : Res Unit :=
  if inEight x && inEight y then imgWrite img (pixelOffset y.toNat x.toNat) (colorBytes c) s
  else
    match img with
    | .value v => .ok () (s.withRet (.image v))
    | .slot _ _ => .ok () s

/-- SET_PIXEL (R146). -/
def execSetPixel (img : ImgRef) (x y : Int) (c : Color) (s : State) : Result := live s (drawPixel img x y c s).outcome

/-- CANVAS_SIZE: width 8 and height 8 (R147). -/
def execCanvasSize (s : State) : Result := live s (.next (s.withRet (.size Config.cols Config.rows)))

end Sys2Proof.Machine
end

