-- ==== Sys2Proof/Machine/Scanout.lean ====
section
/-! DEFINITION. The scanout engine Display (spec/45_display_scanout.md). -/

namespace Sys2Proof.Machine

/-- FRAME_SWAP: the pending image, if any, becomes the current one and the old current handle is freed, in one critical
section (R223). -/
def frameSwap (s : State) : Res Unit :=
  critical .disp [.next, .pool] (fun s =>
    (nextTake .disp s).bind fun t s =>
      match t with
      | none => .ok () s
      | some h =>
        match s.cur with
        | none => raise .badHandle s
        | some old => poolFree .disp old (State.hold .disp old { s.unhold .disp h with cur := some h })) s

/-- `row <- (row + 1) mod 8` (R222). -/
def advanceRow (s : State) : State := { s with row := s.row + 1 }

/-- FRAME_SWAP if the advance has returned the row index to 0 (R220, R223). -/
def swapAtWrap (s : State) : Res Unit := if s.row = 0 then frameSwap s else .ok () s

/-- The current row of the image DISP owns: `IMG_ROW(arena[cur], row)` (R221). -/
def currentRow (s : State) : Res RowPixels :=
  match s.cur with
  | none => raise .badHandle s
  | some c => rowRead (.slot .disp c) s.row.val s

/-- The body of DISPLAY_TICK (R220). -/
def displayBody (s : State) : Res Unit :=
  (currentRow { s with dispDue := false }).bind fun px s =>
    (sendRow s.row.val px s).bind fun _ s => swapAtWrap (advanceRow s)

/-- FRAME_SWAP (R223). Executed by itself it has its effect at any row and in OFF and INIT, where the spec never has it (DESIGN
CHOICE, log 48). -/
def execFrameSwap (s : State) : Result := live s (frameSwap s).outcome

/-- DISPLAY_TICK (R220). Triggered by `disp_due`, in phase RUN. -/
def execDisplayTick (s : State) : Result :=
  live s (if s.phase = .run ∧ s.dispDue = true then (displayBody s).outcome else .refused .notTriggered)

end Sys2Proof.Machine
end

