-- ==== Sys2Proof/Machine/Flags.lean ====
section
/-! DEFINITION. The block has no arithmetic flags; its status bits (spec/10_state.md R31), its fixed priorities
(spec/60_exceptions.md R257) and the effective priority (R258, R262). -/

namespace Sys2Proof.Machine

/-- *pending*: "a pending handle exists" (R31 (a)). -/
def State.pending (s : State) : Bool := s.next.isSome

/-- RX is ready: `rx_fifo` non-empty (R31 (e)). -/
def State.rxReady (s : State) : Bool := !s.rxFifo.isEmpty

/-- Fixed priorities; only their order matters: PRI_RX > PRI_DISP = PRI_SAVER > PRI_NOTICE (R10, R257). BOOT runs while no
actor is live (R291): nothing is above it. -/
def priority : Agent → Nat
  | .boot => 3
  | .rx => 3
  | .disp => 2
  | .saver => 2
  | .notice => 1

/-- The ceiling of one cell: the highest priority of an actor that uses it (R262). -/
def ceilingOf : Shared → Nat
  | .next => 3
  | .pool => 3
  | .changes => 2

/-- The ceiling of a set of cells (R262). -/
def ceiling (cells : List Shared) : Nat := (cells.map ceilingOf).foldr max 0

/-- The priority of the running activation, 0 if nothing runs (R257, R258). -/
def State.runningPriority (s : State) : Nat :=
  match s.acts with
  | [] => 0
  | a :: _ => priority a.agent

/-- `eff`: the priority of the running activation, raised to the ceilings of the open sections (R258, R262). -/
def State.eff (s : State) : Nat :=
  max s.runningPriority ((s.locks.map fun l => ceiling l.2).foldr max 0)

end Sys2Proof.Machine
end

