-- ==== Sys2Proof/Machine/System.lean ====
section
/-! DEFINITION. Reset and boot (spec/70_reset_and_hazards.md), LOCK and HALT (spec/60_exceptions.md). -/

namespace Sys2Proof.Machine

/-- BOOT's assignments to the cells: the three slots are pre-populated, the engines start (R291). No activation is in
progress, so no agent holds a handle in a local variable. -/
def bootCells (s : State) : State :=
  { s with
    mem := Memory.write (Memory.write (Memory.write s.mem (slotAddr 0 0) Config.initCurImage.toList)
      (slotAddr 1 0) Config.initAsmImage.toList) (slotAddr 2 0) Config.initSpareImage.toList
    cur := some 0, asm := some 1, free := [2], next := none, held := []
    rxState := .awaitingSync, row := 0, changes := 0, lastSeen := 0, offset := Config.offsetInit
    noticePending := 0, dispDue := false, saverDue := false, rxFifo := [] }

/-- RESET: in any phase, every cell takes its value "at OFF" (R290). -/
def execReset (s : State) : Result := .next s.toReset

/-- BOOT: `phase <- INIT`, the cells, DRV_INIT, `phase <- RUN` (R291). Started by the release of reset, in phase OFF. -/
def execBoot (s : State) : Result :=
  live s <|
    if s.phase = .off then
      .next { State.emit drvInitEvents (bootCells { s with phase := .init }) with phase := .run }
    else .refused .notTriggered

/-- The innermost open section is the agent's. -/
def ownsSection (who : Agent) (s : State) : Bool :=
  match s.locks with
  | [] => false
  | l :: _ => l.1 == who

/-- LOCK: entering raises `eff` to the ceiling, leaving restores it (R262). Only an open section can be left (log 41). -/
def execLock (who : Agent) (op : LockOp) (s : State) : Result :=
  live s <| match op with
    | .enter cells => .next (s.enterLock who cells)
    | .leave => if ownsSection who s then .next s.leaveLock else .refused .noSection

/-- HALT: `raise ContractViolation(cause)` (R252). -/
def execHalt (c : Cause) (s : State) : Result := live s (.next (s.raiseViolation c))

end Sys2Proof.Machine
end

