-- ==== Sys2Proof/Machine/Dispatch.lean ====
section
/-! DEFINITION. The meaning of every operation, one arm each. -/

namespace Sys2Proof.Machine

def exec (i : Instr) (s : State) : Host.Outcome State Fault Refusal :=
  match i with
  | .sync => Sys2Proof.Machine.execSync s
  | .data d => Sys2Proof.Machine.execData d s
  | .rxByte => Sys2Proof.Machine.execRxByte s
  | .noticeChange => Sys2Proof.Machine.execNoticeChange s
  | .displayTick => Sys2Proof.Machine.execDisplayTick s
  | .frameSwap => Sys2Proof.Machine.execFrameSwap s
  | .saverTick => Sys2Proof.Machine.execSaverTick s
  | .reset => Sys2Proof.Machine.execReset s
  | .boot => Sys2Proof.Machine.execBoot s
  | .drvInit => Sys2Proof.Machine.execDrvInit s
  | .sendRow row px => Sys2Proof.Machine.execSendRow row px s
  | .shiftByte v => Sys2Proof.Machine.execShiftByte v s
  | .setLine l v => Sys2Proof.Machine.execSetLine l v s
  | .pulseSck => Sys2Proof.Machine.execPulseSck s
  | .pulseLat => Sys2Proof.Machine.execPulseLat s
  | .delayMs n => Sys2Proof.Machine.execDelayMs n s
  | .gammaCorrect v => Sys2Proof.Machine.execGammaCorrect v s
  | .colorGamma c => Sys2Proof.Machine.execColorGamma c s
  | .colorMul c f => Sys2Proof.Machine.execColorMul c f s
  | .colorDiv c f => Sys2Proof.Machine.execColorDiv c f s
  | .imgSolid c => Sys2Proof.Machine.execImgSolid c s
  | .imgGradient c => Sys2Proof.Machine.execImgGradient c s
  | .imgIndexRd img row col => Sys2Proof.Machine.execImgIndexRd img row col s
  | .imgIndexWr img row col c => Sys2Proof.Machine.execImgIndexWr img row col c s
  | .imgByteRd img k => Sys2Proof.Machine.execImgByteRd img k s
  | .imgByteWr img k v => Sys2Proof.Machine.execImgByteWr img k v s
  | .imgRow img row => Sys2Proof.Machine.execImgRow img row s
  | .setPixel img x y c => Sys2Proof.Machine.execSetPixel img x y c s
  | .canvasSize => Sys2Proof.Machine.execCanvasSize s
  | .poolAlloc who init => Sys2Proof.Machine.execPoolAlloc who init s
  | .poolFree who h => Sys2Proof.Machine.execPoolFree who h s
  | .nextReplace who h => Sys2Proof.Machine.execNextReplace who h s
  | .nextTake who => Sys2Proof.Machine.execNextTake who s
  | .lock who op => Sys2Proof.Machine.execLock who op s
  | .halt c => Sys2Proof.Machine.execHalt c s

end Sys2Proof.Machine
end

