-- ==== Sys2Proof/Machine/Sched.lean ====
section
/-! DEFINITION. The dispatcher (spec/60_exceptions.md R256 to R264): which activation runs next, preemption at
primitive-step grain, the coarse block move, the moves of ENV. The step (Step.lean) only executes the plan made here. -/

namespace Sys2Proof.Machine

/-! ## Which activation (R258, R261, R264) -/

/-- What the dispatcher decides. -/
inductive Decision where
  /-- The agent starts its activation. -/
  | start (a : Agent)
  /-- DISP and SAVER are both due: either starts (R258, D13). -/
  | tie
  /-- The running activation goes on. -/
  | resume
  /-- There is no block move. -/
  | idle
deriving DecidableEq, Repr

/-- The running activation goes on, or the block idles (R258). -/
def resumeOrIdle (s : State) : Decision := if s.acts = [] then .idle else .resume

/-- The dispatcher: in OFF the only move is BOOT, in INIT it goes on; in RUN a pending actor whose priority is above `eff`
starts, the highest first; in HALTED there is no move (R258, R261, R264, R253). -/
def dispatch (s : State) : Decision :=
  match s.phase with
  | .off => .start .boot
  | .init => resumeOrIdle s
  | .halted => .idle
  | .run =>
    if s.rxReady = true ∧ s.eff < priority .rx then .start .rx
    else if s.dispDue = true ∧ s.saverDue = true ∧ s.eff < priority .disp then .tie
    else if s.dispDue = true ∧ s.eff < priority .disp then .start .disp
    else if s.saverDue = true ∧ s.eff < priority .saver then .start .saver
    else if 0 < s.noticePending ∧ s.eff < priority .notice then .start .notice
    else resumeOrIdle s

/-- Who starts when DISP and SAVER are both due: a free choice (R258, D13; log 16). -/
def tieAgent (s : State) : Agent := if Config.dispFirst s.draws then .disp else .saver

/-! ## Activations at primitive-step grain (R258, R259, R260) -/

/-- The primitive steps of a DISP activation after its first, `disp_due <- false` (R220). -/
def displayMicros (row : Fin 8) : List Micro :=
  .loadRow :: (rowSeq row Micro.bit Micro.event ++ [.advanceRow, .swapAtWrap])

/-- The primitive steps of a NOTICE activation after its first (R206). -/
def noticeMicros : List Micro := [.lockEnter [.changes], .bumpChanges, .lockLeave]

/-- The primitive steps of BOOT after its first, `phase <- INIT` (R291). -/
def bootMicros : List Micro := .bootCells :: (drvInitEvents.map Micro.event ++ [.bootDone])

/-- An activation begins: it lies on the ones it preempts, which keep their continuations (R259). Its working colours are black
until SEND_ROW step 1 writes them: R35 and R182 give them no value before, and nothing reads them (DESIGN CHOICE, log 47). -/
def State.push (a : Agent) (todo : List Micro) (s : State) : State :=
  { s with acts := ⟨a, Vector.replicate 8 Color.black, todo⟩ :: s.acts }

/-- The innermost activation ends (R260). -/
def State.pop (s : State) : State := { s with acts := s.acts.tail }

/-- The innermost activation gets its working colours `g[0..7]` (R35). -/
def State.setG (g : RowPixels) (s : State) : State :=
  match s.acts with
  | [] => s
  | a :: rest => { s with acts := { a with g := g } :: rest }

/-- The working colours of the innermost activation (R35); black if there is none (log 47). -/
def State.topG (s : State) : RowPixels :=
  match s.acts with
  | [] => Vector.replicate 8 Color.black
  | a :: _ => a.g

/-- One primitive step of the agent of the innermost activation. -/
def runMicro (who : Agent) (m : Micro) (s : State) : Res Unit :=
  match m with
  | .loadRow => (currentRow s).bind fun px s => .ok () (s.setG (px.map gammaColor))
  | .bit i ch k => .ok () (s.emit [.set .sda ((s.topG[i].channel ch).getLsbD k)])
  | .event e => .ok () (s.emit [e])
  | .advanceRow => .ok () (advanceRow s)
  | .swapAtWrap => swapAtWrap s
  | .saverSection => saverSection s
  | .lockEnter cells => .ok () (s.enterLock who cells)
  | .bumpChanges => .ok () (bumpCounter s)
  | .lockLeave => .ok () s.leaveLock
  | .bootCells => .ok () (bootCells s)
  | .bootDone => .ok () { s with phase := .run }

/-- The innermost activation makes its next primitive step; after its last one it ends (R258, R260). -/
def microStep (s : State) : Res Unit :=
  match s.acts with
  | [] => .ok () s
  | a :: rest =>
    match a.todo with
    | [] => .ok () s.pop
    | m :: ms =>
      (runMicro a.agent m { s with acts := { a with todo := ms } :: rest }).bind fun _ s' =>
        if ms = [] then .ok () s'.pop else .ok () s'

/-- As many primitive steps of the innermost activation as the list is long. -/
def microSteps : List Micro → State → Res Unit
  | [], s => .ok () s
  | _ :: ms, s => (microStep s).bind fun _ s' => microSteps ms s'

/-- The innermost activation runs to its end. -/
def finish (s : State) : Res Unit :=
  match s.acts with
  | [] => .ok () s
  | a :: _ => if a.todo = [] then microStep s else microSteps a.todo s

/-! ## Plans -/

/-- What a step does: execute an operation, or something that is no operation of the table. -/
inductive Plan where
  | exec (i : Instr) (s : State)
  | done (o : Result)
deriving Repr

/-- The operation that is the whole activation of an agent (R264). -/
def activationOf : Agent → Instr
  | .boot => .boot
  | .rx => .rxByte
  | .disp => .displayTick
  | .saver => .saverTick
  | .notice => .noticeChange

/-- The received operation RX runs, and the state with its byte consumed (R200). -/
def rxPlan (s : State) : Plan :=
  match decode s.rxFifo with
  | .ok (i, rest) => .exec i { s with rxFifo := rest }
  | .error .noByte => .done (.refused .notTriggered)

/-- An activation run atomically (R263, R264). RX runs the operation its byte encodes. -/
def coarseStart (a : Agent) (s : State) : Plan :=
  match a with
  | .rx => rxPlan s
  | .boot | .disp | .saver | .notice => .exec (activationOf a) s

/-- An activation begun at primitive-step grain: its first primitive step is made, the others are left to do (R258, R259).
RX is never preempted: its activation is one step (R260). -/
def fineStart (a : Agent) (s : State) : Plan :=
  match a with
  | .rx => rxPlan s
  | .boot => .done (.next (State.push .boot bootMicros { s with phase := .init }))
  | .disp => .done (.next (State.push .disp (displayMicros s.row) { s with dispDue := false }))
  | .saver => .done (.next (State.push .saver [.saverSection] { s with saverDue := false }))
  | .notice => .done (.next (State.push .notice noticeMicros { s with noticePending := s.noticePending - 1 }))

/-- The coarse block move (R264): the activation the dispatcher chooses runs to its end. -/
def coarsePlan (s : State) : Plan :=
  match dispatch s with
  | .start a => coarseStart a s
  | .tie => coarseStart (tieAgent s) { s with draws := s.draws + 1 }
  | .resume => .done (finish s).outcome
  | .idle => .done (.next s)

/-- The block's next step at primitive-step grain (R258). -/
def finePlan (s : State) : Plan :=
  match dispatch s with
  | .start a => fineStart a s
  | .tie => fineStart (tieAgent s) { s with draws := s.draws + 1 }
  | .resume => .done (microStep s).outcome
  | .idle => .done (.next s)

/-! ## The moves of ENV (R264, R290, R294) -/

/-- DISP has an activation in progress. -/
def running (a : Agent) (s : State) : Bool := s.acts.any fun x => x.agent == a

/-- A move of ENV. A move that is not enabled does not happen: bytes that arrive before RUN are lost (R294), a tick can
become due again only after its activation has ended (R224, R240, R260; log 36). RESET can come in any phase (R290). -/
def envPlan (m : EnvMove) (s : State) : Plan :=
  match m with
  | .deliver b => .done (.next (if s.phase = .run then { s with rxFifo := s.rxFifo ++ [b] } else s))
  | .dispDue => .done (.next (if s.phase = .run ∧ running .disp s = false then { s with dispDue := true } else s))
  | .saverDue => .done (.next (if s.phase = .run ∧ running .saver s = false then { s with saverDue := true } else s))
  | .reset => .exec .reset s

/-- The next step of the block and its environment. The stimulus says whose it is; with no stimulus left the block goes on by
itself, and a halted block has no step (R253, R264; log 1, log 2). -/
def stepPlan (s : State) : Plan :=
  match s.stim with
  | [] => if s.phase = .halted then .done (.fault (.halted s.fatal)) else coarsePlan s
  | .env m :: rest => envPlan m { s with stim := rest }
  | .tick :: rest => finePlan { s with stim := rest }
  | .settle :: rest => if dispatch s = .idle then .done (.next { s with stim := rest }) else coarsePlan s

/-! ## Stimulus scripts (R102) -/

/-- The stimulus of a script: after each line, or group, of moves the block runs until it is quiescent (R102). -/
def script (lines : List (List EnvMove)) : List Stim :=
  lines.flatMap fun moves => moves.map Stim.env ++ [.settle]

end Sys2Proof.Machine
end

