-- ==== Sys2Proof/Machine/Step.lean ====
section
/-! DEFINITION. One step of the machine: the plan of Sched.lean, executed. -/

namespace Sys2Proof.Machine

/-- One step. -/
def step (s : State) : Host.Outcome State Fault Refusal :=
  match stepPlan s with
  | .exec i s' => exec i s'
  | .done o => o

/-- The state with an opcode-table word as the next received byte: the block is in RUN with nothing else to do first, and
the byte is at the head of `rx_fifo`, where RX takes its next operation (R200; log 3, log 46). -/
def State.withFetchWord (s : State) (nbits w : Nat) : State :=
  { s with phase := .run, rxFifo := tableBytes nbits w ++ s.rxFifo, acts := [], locks := [], stim := [] }

end Sys2Proof.Machine
end

