-- ==== Sys2Proof/Safety.lean ====
section
/-! DEFINITION. The terms claims are stated in: what a state of a good run is, who owns which slot, what the 13 lines show. -/

namespace Sys2Proof.Machine

/-! ## Gamma (R124) -/

/-- A map of bytes never falls. -/
def MonotoneBytes (f : Byte → Byte) : Prop := ∀ a b : Byte, a.toNat ≤ b.toNat → (f a).toNat ≤ (f b).toNat

/-- The one property that may be assumed of the gamma curve (R124). -/
def GammaMonotone : Prop := MonotoneBytes gamma

/-! ## Ownership (R24, R163) -/

/-- Every place that holds a slot: the free list, `next`, `asm`, `cur`, the local variables. -/
def owners (s : State) : List Slot :=
  s.free ++ s.next.toList ++ s.asm.toList ++ s.cur.toList ++ s.held.map Prod.snd

/-- `free_count + outstanding_handles == 3` and no slot is held twice: the places hold each slot exactly once (R163). -/
def PoolInv (s : State) : Prop := (owners s).Perm [0, 1, 2]

/-- The free list rises strictly. -/
def FreeRising (s : State) : Prop := s.free.Pairwise (· < ·)

/-! ## Memory -/

/-- The arena is in its canonical form. -/
def MemInv (s : State) : Prop := Memory.wf s.mem = true

/-- Every byte of the arena has a value. -/
def ArenaFull (s : State) : Prop := ∀ a, a < 576 → (Memory.read s.mem a).isSome = true

/-- The 192 bytes of a slot. -/
def slotBytes (s : State) (h : Slot) : Option (List Byte) := Memory.readBlock s.mem (slotAddr h 0) 192

/-- The cells of a slot. -/
def inSlot (h : Slot) (x : Nat) : Prop := 192 * h.val ≤ x ∧ x < 192 * h.val + 192

/-- The slot a producer of `next` gets when it frees what is pending and then allocates: the pending one with no other free, or
the only free one with none pending (R165). -/
def OnlySlot (s : State) (h : Slot) : Prop :=
  (s.next = some h ∧ s.free = []) ∨ (s.next = none ∧ s.free = [h])

/-- The bytes received so far of the frame being assembled are none of them 0xFF (R103, R207). -/
def ReceivedInv (s : State) : Prop :=
  ∀ (c : Fin 192) (a : Slot), s.rxState = .filling c → s.asm = some a →
    ∀ k, k < c.val → ∃ b, Memory.read s.mem (slotAddr a k) = some b ∧ b ≠ 0xFF#8

/-! ## Phases -/

/-- `fatal` is None in every phase but HALTED, and HALTED has a cause (R32). -/
def FatalInv (s : State) : Prop := s.fatal.isSome = true ↔ s.phase = .halted

/-! ## Lines -/

/-- Of the eight row lines at most one is high (R185). -/
def AtMostOneRow (ls : Lines) : Prop := ∀ i j : Fin 8, ls.rows[i] = true → ls.rows[j] = true → i = j

/-- The levels DRV_INIT leaves on the control lines other than SDA (R180, R38 (g)). -/
def ControlIdle (ls : Lines) : Prop :=
  ls.sb = true ∧ ls.rst = true ∧ ls.sck = Config.sckIdle ∧ ls.lat = Config.latIdle

/-- What remains of a trace when the writes that change nothing are deleted, from the levels `ls` on (R17). -/
def visible (ls : Lines) : List LineEvent → List LineEvent
  | [] => []
  | .set l v :: evs =>
    if Lines.level ls l = v then visible ls evs else .set l v :: visible (Lines.after ls (.set l v)) evs
  | .delay n :: evs => .delay n :: visible ls evs

/-- Two traces are wire-equivalent (R17). -/
def WireEquiv (ls : Lines) (t u : List LineEvent) : Prop := visible ls t = visible ls u

/-- The shifted bit sequence of a trace, from the level `sda` of SDA on: at every clock event the level of SDA (R98). -/
def shiftedBits (sda : Level) : List LineEvent → List Level
  | [] => []
  | .set .sda v :: evs => shiftedBits v evs
  | .set .sck v :: evs => if v = !Config.sckIdle then sda :: shiftedBits sda evs else shiftedBits sda evs
  | .set _ _ :: evs => shiftedBits sda evs
  | .delay _ :: evs => shiftedBits sda evs

/-- The committed frames of a trace, each the bits shifted since the previous LAT pulse, closed by a LAT pulse; what was shifted
before the trace is `bits`, and what no pulse closes is no frame. A pulse is read at its write away from the idle level, as a
clock event is (R98; log 32). -/
def committedFrames (sda : Level) (bits : List Level) : List LineEvent → List (List Level)
  | [] => []
  | .set .sda v :: evs => committedFrames v bits evs
  | .set .sck v :: evs =>
    if v = !Config.sckIdle then committedFrames sda (bits ++ [sda]) evs else committedFrames sda bits evs
  | .set .lat v :: evs =>
    if v = !Config.latIdle then bits :: committedFrames sda [] evs else committedFrames sda bits evs
  | .set .sb _ :: evs | .set .rst _ :: evs | .set (.row _) _ :: evs => committedFrames sda bits evs
  | .delay _ :: evs => committedFrames sda bits evs

/-- The data bit of a row frame shifted as number t, of the gamma-corrected colours g: the formula of R94. -/
def rowBit (g : RowPixels) (t : Nat) : Level :=
  ((g[7 - t / 8 / 3]'(by omega)).channel
    (if t / 8 % 3 = 0 then .b else if t / 8 % 3 = 1 then .g else .r)).getLsbD (7 - t % 8)

/-! ## Good states between activations (R38) -/

/-- Nothing is in the middle: no activation, no section, no handle in a local variable. -/
def AtRest (s : State) : Prop := s.acts = [] ∧ s.locks = [] ∧ s.held = []

/-- The block in RUN between activations (R38 (a) to (g); (h) is `FatalInv`). -/
structure Running (s : State) : Prop where
  pool : PoolInv s
  asmSome : s.asm.isSome = true
  curSome : s.cur.isSome = true
  offsetLow : -120 ≤ s.offset
  offsetHigh : s.offset ≤ 30
  rows : ∀ i : Fin 8, s.lines.rows[i] = true → i = s.row + 7
  control : ControlIdle s.lines
  full : ArenaFull s

/-- A good state of a run whose activations are atomic (R263, R264): no primitive step is asked for, nothing is in the middle,
nothing has halted, and what R38 says holds. -/
structure GoodState (s : State) : Prop where
  atomic : Stim.tick ∉ s.stim
  rest : AtRest s
  mem : MemInv s
  fatalNone : s.fatal = none
  phase : s.phase = .off ∨ s.phase = .run
  off : s.phase = .off → ∀ i : Fin 8, s.lines.rows[i] = false
  run : s.phase = .run → Running s

/-! ## Endless runs and fairness (R264, R312)

State holds the stimulus of a finite script. An endless run has an endless ENV instead: at every instant ENV makes a move, or
else the block makes its coarse block move. Nothing says that ENV ever stops. -/

/-- One instant: ENV's move, or the block move if ENV makes none (R264). -/
def instant (m : Option EnvMove) (s : State) : Result := step { s with stim := (m.map Stim.env).toList }

/-- An endless run of the block under an endless ENV (R264, R312). -/
def EndlessRun (env : Nat → Option EnvMove) (run : Nat → State) : Prop :=
  ∀ n, instant (env n) (run n) = .next (run (n + 1))

/-- There is a block move (R264): the dispatcher has an activation to start or to go on with. -/
def BlockMoveEnabled (s : State) : Prop := dispatch s ≠ .idle

/-- The fairness that a liveness claim may assume: a continuously enabled block move is eventually taken, and both ticks are due
infinitely often (R312; how the latter is read, log 45). -/
structure Fair (env : Nat → Option EnvMove) (run : Nat → State) : Prop where
  block : ∀ n, (∀ k, n ≤ k → BlockMoveEnabled (run k)) → ∃ k, n ≤ k ∧ env k = none
  disp : ∀ n, ∃ k, n ≤ k ∧ (run k).dispDue = true
  saver : ∀ n, ∃ k, n ≤ k ∧ (run k).saverDue = true

end Sys2Proof.Machine
end

