-- ==== Sys2Proof/Certificates/Slice0/Obligations.lean ====
section
/-! DEFINITION. The statements for the provers. -/

open Sys2Proof Sys2Proof.Machine

/-! ## Encoding -/

/-- R91: a byte is SYNC exactly when it is 0xFF; every other byte belongs to exactly one of the eight DATA patterns, and is
DATA with the whole byte as operand. -/
def Obligations.EveryByteIsSyncOrData : Prop :=
  ∀ b : Byte, (syncPattern.holds b = true ↔ b = 0xFF#8) ∧
    (dataPatterns.filter fun p => p.holds b).length = (if b = 0xFF#8 then 0 else 1) ∧
    decodeByte b = (if b = 0xFF#8 then Instr.sync else Instr.data b)

/-- A few words of R91, written out. -/
def Obligations.WordsDecodeAsTheTableSays : Prop :=
  decode [0xFF#8] = .ok (.sync, []) ∧ decode [0x00#8, 0xFF#8] = .ok (.data 0x00#8, [0xFF#8]) ∧
  decode [0x7F#8] = .ok (.data 0x7F#8, []) ∧ decode [0xFE#8] = .ok (.data 0xFE#8, []) ∧
  decodeTableWord 8 0xFF = some .sync ∧ decodeTableWord 8 0xC5 = some (.data 0xC5#8)

/-- Decode and encode agree, one operation and whole streams, in both directions (R91, R99, R100). -/
def Obligations.StreamDecodeEncodeAgree : Prop :=
  (∀ (i : Instr) (bs rest : List Byte), wellFormed i = true → encode i = some bs →
    decode (bs ++ rest) = .ok (i, rest)) ∧
  (∀ (is : List Instr) (bs : List Byte), (∀ i ∈ is, wellFormed i = true) → encodeAll is = some bs →
    decodeAll bs = is) ∧
  (∀ bs : List Byte, encodeAll (decodeAll bs) = some bs ∧ ∀ i ∈ decodeAll bs, wellFormed i = true)

/-! ## The step -/

/-- A step runs the operation the byte at the head of `rx_fifo` encodes, with the byte consumed, whenever RX may start (R200,
R258): by itself, at primitive-step grain, and on the way to quiescence. The word `withFetchWord` stores is the next operation
run. -/
def Obligations.StepRunsReceivedOperation : Prop :=
  (∀ (s : State) (i : Instr) (rest : List Byte), s.phase = .run → s.eff < 3 → decode s.rxFifo = .ok (i, rest) →
    (s.stim = [] → step s = exec i { s with rxFifo := rest }) ∧
    (∀ r, s.stim = .tick :: r → step s = exec i { s with rxFifo := rest, stim := r }) ∧
    (∀ r, s.stim = .settle :: r → step s = exec i { s with rxFifo := rest })) ∧
  (∀ (s : State) (w : Nat) (i : Instr), decodeTableWord 8 w = some i →
    step (s.withFetchWord 8 w) = exec i { s with phase := .run, acts := [], locks := [], stim := [] })

/-- R264, the block moves: with nothing in the middle RX runs first, then DISPLAY_TICK or SAVER_TICK, either if both are due,
then NOTICE_CHANGE; otherwise there is no block move. In OFF the only move is BOOT. -/
def Obligations.CoarseBlockMove : Prop :=
  ∀ s : State, s.stim = [] → s.acts = [] → s.locks = [] →
    (s.phase = .off → step s = exec .boot s) ∧
    (s.phase = .run →
      (s.rxFifo ≠ [] → step s = exec .rxByte s) ∧
      (s.rxFifo = [] → s.dispDue = true → s.saverDue = false → step s = exec .displayTick s) ∧
      (s.rxFifo = [] → s.dispDue = false → s.saverDue = true → step s = exec .saverTick s) ∧
      (s.rxFifo = [] → s.dispDue = true → s.saverDue = true →
        step s = exec .displayTick { s with draws := s.draws + 1 } ∨
        step s = exec .saverTick { s with draws := s.draws + 1 }) ∧
      (s.rxFifo = [] → s.dispDue = false → s.saverDue = false → 0 < s.noticePending →
        step s = exec .noticeChange s) ∧
      (s.rxFifo = [] → s.dispDue = false → s.saverDue = false → s.noticePending = 0 → step s = .next s))

/-- R264, R294, R290, the moves of ENV, between activations and inside them: enabled in RUN only, without effect elsewhere, RESET
in any phase; before RUN the dispatcher starts no actor, whatever is pending. The model's and the spec's choices in it: moves
before RUN are lost (D24; log 27), a move in HALTED is passed over (log 19), a tick already due stays due (log 36), and a tick does
not become due while its own actor's activation is in progress (log 36). -/
def Obligations.EnvironmentMoves : Prop :=
  ∀ (s : State) (r : List Stim) (b : Byte),
    (s.stim = .env (.deliver b) :: r → s.phase = .run → step s = .next { s with rxFifo := s.rxFifo ++ [b], stim := r }) ∧
    (s.stim = .env .dispDue :: r → s.phase = .run → (∀ a ∈ s.acts, a.agent ≠ .disp) →
      step s = .next { s with dispDue := true, stim := r }) ∧
    (s.stim = .env .dispDue :: r → s.phase = .run → (∃ a ∈ s.acts, a.agent = .disp) → step s = .next { s with stim := r }) ∧
    (s.stim = .env .saverDue :: r → s.phase = .run → (∀ a ∈ s.acts, a.agent ≠ .saver) →
      step s = .next { s with saverDue := true, stim := r }) ∧
    (s.stim = .env .saverDue :: r → s.phase = .run → (∃ a ∈ s.acts, a.agent = .saver) → step s = .next { s with stim := r }) ∧
    (∀ m, m ≠ EnvMove.reset → s.stim = .env m :: r → s.phase ≠ .run → step s = .next { s with stim := r }) ∧
    (s.stim = .env .reset :: r → step s = exec .reset { s with stim := r }) ∧
    (s.phase = .off → dispatch s = .start .boot) ∧ (s.phase = .init → s.acts = [] → dispatch s = .idle)

/-- A preemption keeps the continuation it suspends and writes no other cell: an actor that is due starts on top of a
NOTICE activation in progress (R259, R258). The working colours of the new activation are black until SEND_ROW writes them, the
model's choice (log 47). -/
def Obligations.PreemptionKeepsTheContinuation : Prop :=
  ∀ (s : State) (a : Activation) (rest : List Activation) (r : List Stim),
    s.phase = .run → s.stim = .tick :: r → s.acts = a :: rest → a.agent = .notice → s.locks = [] → s.rxFifo = [] →
    (s.dispDue = true → s.saverDue = false →
      step s = .next { s with
        stim := r, dispDue := false
        acts := ⟨.disp, Vector.replicate 8 Color.black, displayMicros s.row⟩ :: a :: rest }) ∧
    (s.dispDue = false → s.saverDue = true →
      step s = .next { s with
        stim := r, saverDue := false
        acts := ⟨.saver, Vector.replicate 8 Color.black, [.saverSection]⟩ :: a :: rest })

/-- R262: entering a section on `next` or the pool keeps every actor from starting, entering one on `changes` alone keeps
every actor but RX from starting. Both rest on the level a section raises to, the ceiling, 3 for `next` and the pool and 2 for
`changes`, which is the spec's decision D30 (log 31). -/
def Obligations.SectionsKeepActorsOut : Prop :=
  ∀ (s : State) (who : Agent) (cells : List Shared), s.phase = .run →
    ((.next ∈ cells ∨ .pool ∈ cells) →
      dispatch (s.enterLock who cells) = .resume ∨ dispatch (s.enterLock who cells) = .idle) ∧
    (.changes ∈ cells → dispatch (s.enterLock who cells) = .start .rx ∨
      dispatch (s.enterLock who cells) = .resume ∨ dispatch (s.enterLock who cells) = .idle)

/-- R263: an activation of Display, Screensaver, NoticeChange or BOOT run by primitive steps, with nothing arriving, leaves what
the atomic activation leaves. How many steps each takes, 584, 2, 4 and 299, is the model's grain (log 2): BOOT's assignments, the
eight of `g[0..7]`, and each section of ceiling 3 are one step. -/
def Obligations.ActivationsByPrimitiveStepsAreAtomic : Prop :=
  (∀ (s : State) (r : List Stim), s.phase = .run → s.acts = [] → s.locks = [] → s.rxFifo = [] → s.dispDue = true →
    s.saverDue = false → s.stim = List.replicate 584 Stim.tick ++ r →
    Sys2Proof.core.run 584 s = exec .displayTick { s with stim := r }) ∧
  (∀ (s : State) (r : List Stim), s.phase = .run → s.acts = [] → s.locks = [] → s.rxFifo = [] → s.dispDue = false →
    s.saverDue = true → s.stim = List.replicate 2 Stim.tick ++ r →
    Sys2Proof.core.run 2 s = exec .saverTick { s with stim := r }) ∧
  (∀ (s : State) (r : List Stim), s.phase = .run → s.acts = [] → s.locks = [] → s.rxFifo = [] → s.dispDue = false →
    s.saverDue = false → 0 < s.noticePending → s.stim = List.replicate 4 Stim.tick ++ r →
    Sys2Proof.core.run 4 s = exec .noticeChange { s with stim := r }) ∧
  (∀ (s : State) (r : List Stim), s.phase = .off → s.acts = [] → s.stim = List.replicate 299 Stim.tick ++ r →
    Sys2Proof.core.run 299 s = exec .boot { s with stim := r })

/-- R188, R263: an RX operation inserted before a line step of a DISP activation commutes with it. -/
def Obligations.ReceptionCommutesWithLineSteps : Prop :=
  ∀ (s t : State) (a : Activation) (rest : List Activation) (m : Micro) (ms : List Micro) (i : Instr),
    s.acts = a :: rest → a.agent = .disp → a.todo = m :: ms →
    ((∃ e, m = .event e) ∨ ∃ p ch k, m = .bit p ch k) → (i = .sync ∨ ∃ d, i = .data d) →
    exec i s = .next t → t.phase ≠ .halted →
    ∃ s' u, microStep s = .ok () s' ∧ microStep t = .ok () u ∧ exec i s' = .next u

/-! ## The exception, reset and boot -/

/-- R252: HALT records the cause, halts the block, abandons every activation, and keeps every other cell and every line (that
all else is kept is the spec's decision D16). -/
def Obligations.HaltTakesTheViolation : Prop :=
  ∀ (s : State) (c : Cause), s.phase ≠ .halted →
    exec (.halt c) s = .next { s with fatal := some c, phase := .halted, acts := [], locks := [] }

/-- R253: in HALTED no operation but RESET has a step, neither has the block by itself, and RESET leaves HALTED. That
having no step is the fault `halted` is the model's choice (log 19). -/
def Obligations.HaltedHasNoStepButReset : Prop :=
  ∀ s : State, s.phase = .halted →
    (∀ i, i ≠ Instr.reset → exec i s = .fault (.halted s.fatal)) ∧
    (s.stim = [] → step s = .fault (.halted s.fatal)) ∧
    (∀ r, s.stim = .env .reset :: r → ∃ t, step s = .next t ∧ t.phase = .off ∧ t.fatal = none)

/-- R290: RESET, in any phase, gives every cell of the block its value at OFF and abandons every activation; then BOOT runs.
The reset event and most of the values are the spec's decisions (D5 to D9, D14, D24; log 10 to log 13, log 17). -/
def Obligations.ResetGivesTheOffValues : Prop :=
  ∀ s : State, ∃ t, exec .reset s = .next t ∧
    t.phase = .off ∧ t.fatal = none ∧ t.trace = [] ∧ t.rxFifo = [] ∧ t.acts = [] ∧
    t.free = [0, 1, 2] ∧ t.next = none ∧ t.asm = none ∧ t.cur = none ∧ t.rxState = .awaitingSync ∧
    t.row = 0 ∧ t.changes = 0 ∧ t.lastSeen = 0 ∧ t.offset = 30 ∧ t.dispDue = false ∧ t.saverDue = false ∧
    t.noticePending = 0 ∧ t.lines = ⟨true, true, false, false, false, Vector.replicate 8 false⟩ ∧
    dispatch t = .start .boot

/-- R291: BOOT in OFF pre-populates the three slots, starts the engines, performs DRV_INIT and enters RUN. The
slot numbers and the starting values are the spec's decisions (D5 to D9, D11, D14, D35). -/
def Obligations.BootReachesRun : Prop :=
  ∀ s : State, s.phase = .off → s.held = [] → ∃ t, exec .boot s = .next t ∧
    t.phase = .run ∧ t.fatal = s.fatal ∧ t.cur = some 0 ∧ t.asm = some 1 ∧ t.free = [2] ∧ t.next = none ∧ t.held = [] ∧
    slotBytes t 0 = some Config.initCurImage.toList ∧ slotBytes t 1 = some Config.initAsmImage.toList ∧
    slotBytes t 2 = some Config.initSpareImage.toList ∧ (∀ x, 576 ≤ x → Memory.read t.mem x = Memory.read s.mem x) ∧
    t.rxState = .awaitingSync ∧ t.row = 0 ∧ t.changes = 0 ∧ t.lastSeen = 0 ∧ t.offset = 30 ∧ t.noticePending = 0 ∧
    t.dispDue = false ∧ t.saverDue = false ∧ t.rxFifo = [] ∧ t.trace = s.trace ++ drvInitEvents ∧
    t.lines = { s.lines with
      rst := true, sb := true, sda := true, sck := Config.sckIdle, lat := Config.latIdle } ∧
    t.acts = s.acts ∧ t.locks = s.locks ∧ t.ret = s.ret ∧ t.stim = s.stim ∧ t.draws = s.draws

/-! ## Invariants -/

/-- R163: every step keeps `free_count + outstanding_handles == 3` with no slot held twice. -/
def Obligations.StepKeepsPoolInvariant : Prop :=
  ∀ s t : State, PoolInv s → step s = .next t → PoolInv t

/-- Every step keeps the arena in its canonical form and the free list rising, and takes no byte of the arena its value. -/
def Obligations.StepKeepsCanonicalForms : Prop :=
  ∀ s t : State, MemInv s → FreeRising s → step s = .next t →
    MemInv t ∧ FreeRising t ∧ (ArenaFull s → ArenaFull t)

/-- R32: every step keeps "fatal is None in every phase but HALTED". -/
def Obligations.StepKeepsFatalWithHalted : Prop :=
  ∀ s t : State, FatalInv s → step s = .next t → FatalInv t

/-- R103, R207: every step keeps the bytes of the frame being assembled free of 0xFF, in a block whose slots have one owner
each. -/
def Obligations.StepKeepsReceivedBytes : Prop :=
  ∀ s t : State, PoolInv s → ReceivedInv s → step s = .next t → ReceivedInv t

/-- R38: every step keeps a good state good, with activations taken as atomic. -/
def Obligations.StepKeepsGoodState : Prop :=
  ∀ s t : State, GoodState s → step s = .next t → GoodState t

/-- The invariants hold right after reset. -/
def Obligations.ResetMeetsTheInvariants : Prop :=
  PoolInv State.reset ∧ MemInv State.reset ∧ ArenaFull State.reset ∧ FreeRising State.reset ∧ FatalInv State.reset ∧
  ReceivedInv State.reset ∧ GoodState State.reset

/-- R251, R253: from a good state no run raises a ContractViolation, faults or is refused, however long. -/
def Obligations.GoodRunsNeverHalt : Prop :=
  ∀ (n : Nat) (s : State), GoodState s → ∃ t, Sys2Proof.core.run n s = .next t ∧ t.phase ≠ .halted ∧ t.fatal = none

/-- R38 (b), R165: with nothing in the middle one slot is free if nothing is pending, and none if an image is. -/
def Obligations.FreeCountFollowsPending : Prop :=
  ∀ s : State, PoolInv s → s.held = [] → s.asm.isSome = true → s.cur.isSome = true →
    (s.next = none → s.free.length = 1) ∧ (s.next.isSome = true → s.free = [])

/-- R225: while Display keeps its buffer, no step changes a byte of it. -/
def Obligations.CurrentImageIsNeverWritten : Prop :=
  ∀ (s t : State) (c : Slot), GoodState s → s.phase = .run → s.cur = some c → step s = .next t → t.phase = .run →
    t.cur = some c → ∀ x, inSlot c x → Memory.read t.mem x = Memory.read s.mem x

/-! ## Colour and gamma -/

/-- R122, R123: the doubled curve value clamped at 255, each channel by itself; only the result cell of the model changes.
The clamp is the spec's decision D3 (log 9). -/
def Obligations.GammaDoublesAndClamps : Prop :=
  ∀ s : State, s.phase ≠ .halted →
    (∀ v : Byte, ∃ b : Byte, exec (.gammaCorrect v) s = .next { s with ret := .byte b } ∧
      b.toNat = min (2 * (Config.gammaLut v).toNat) 255) ∧
    (∀ c : Color, ∃ d : Color, exec (.colorGamma c) s = .next { s with ret := .color d } ∧
      ∀ ch, (d.channel ch).toNat = min (2 * (Config.gammaLut (c.channel ch)).toNat) 255)

/-- R124: under saturation the correction is monotone exactly when `min(GAMMA_LUT[v], 128)` is non-decreasing, for every
curve; in particular for every non-decreasing one. -/
def Obligations.SaturationKeepsMonotoneCurves : Prop :=
  (∀ lut : Byte → Byte, MonotoneBytes (gammaWith .saturate lut) ↔
    ∀ a b : Byte, a.toNat ≤ b.toNat → min (lut a).toNat 128 ≤ min (lut b).toNat 128) ∧
  (∀ lut : Byte → Byte, MonotoneBytes lut → MonotoneBytes (gammaWith .saturate lut)) ∧
  (MonotoneBytes Config.gammaLut → GammaMonotone) ∧
  (∀ (lut : Byte → Byte) (a b : Byte), a.toNat ≤ b.toNat → (lut a).toNat < 128 → 128 ≤ (lut b).toNat →
    (lut b).toNat - 128 < (lut a).toNat → ¬ MonotoneBytes (gammaWith .wrap lut))

/-- R125, R126, R127: scaling by a rational is exact, truncated, clamped to 0..255, each channel by itself; a zero divisor, a
NaN or an infinity is refused. Exact arithmetic and the refusals are the spec's decision D23 (log 26). -/
def Obligations.ScalingTruncatesAndClamps : Prop :=
  ∀ (s : State) (c : Color), s.phase ≠ .halted →
    (∀ q : Rat, ∃ d : Color, exec (.colorMul c (.rat q)) s = .next { s with ret := .color d } ∧
      ∀ ch, ((d.channel ch).toNat : Int) = max 0 (min 255 ⌊((c.channel ch).toNat : Rat) * q⌋)) ∧
    (∀ q : Rat, q ≠ 0 → ∃ d : Color, exec (.colorDiv c (.rat q)) s = .next { s with ret := .color d } ∧
      ∀ ch, ((d.channel ch).toNat : Int) = max 0 (min 255 ⌊((c.channel ch).toNat : Rat) / q⌋)) ∧
    exec (.colorDiv c (.rat 0)) s = .refused .scalarUndefined ∧
    (∀ f, f = Scalar.nan ∨ f = .posInf ∨ f = .negInf →
      exec (.colorMul c f) s = .refused .scalarUndefined ∧ exec (.colorDiv c f) s = .refused .scalarUndefined)

/-! ## Images -/

/-- R140, R147: the solid image repeats the colour's bytes 64 times; the canvas is 8 by 8. -/
def Obligations.SolidImageAndCanvas : Prop :=
  ∀ (s : State) (c : Color), s.phase ≠ .halted →
    (∃ img : Image, exec (.imgSolid c) s = .next { s with ret := .image img } ∧
      img.toList = (List.replicate 64 [c.r, c.g, c.b]).flatten) ∧
    exec .canvasSize s = .next { s with ret := .size 8 8 }

/-- R141: pixel (row, col) of the gradient is the colour divided by 1 + row*row + col, truncated. The divisor is the spec's
decision D19 (log 22). -/
def Obligations.GradientDividesEachPixel : Prop :=
  ∀ (s : State) (c : Color), s.phase ≠ .halted →
    ∃ img : Image, exec (.imgGradient c) s = .next { s with ret := .image img } ∧
      ∀ row col : Nat, row < 8 → col < 8 →
        (img.toList.getD (3 * (8 * row + col)) 0).toNat = c.r.toNat / (1 + row * row + col) ∧
        (img.toList.getD (3 * (8 * row + col) + 1) 0).toNat = c.g.toNat / (1 + row * row + col) ∧
        (img.toList.getD (3 * (8 * row + col) + 2) 0).toNat = c.b.toNat / (1 + row * row + col)

/-- R142, R144, R145: reading a pixel, a byte or a row of an image value or of a slot its agent owns returns those bytes and
changes nothing but the result cell of the model. -/
def Obligations.ImageReadsReturnTheBytes : Prop :=
  ∀ (s : State) (img : ImgRef) (bs : List Byte), s.phase ≠ .halted →
    ((∃ v : Image, img = .value v ∧ bs = v.toList) ∨
      ∃ who h, img = .slot who h ∧ owns who h s = true ∧ slotBytes s h = some bs) →
    (∀ row col : Nat, row < 8 → col < 8 →
      ∃ p : Color, exec (.imgIndexRd img row col) s = .next { s with ret := .color p } ∧
        p.r = bs.getD (3 * (8 * row + col)) 0 ∧ p.g = bs.getD (3 * (8 * row + col) + 1) 0 ∧
        p.b = bs.getD (3 * (8 * row + col) + 2) 0) ∧
    (∀ k : Nat, k < 192 → exec (.imgByteRd img k) s = .next { s with ret := .byte (bs.getD k 0) }) ∧
    (∀ row : Nat, row < 8 → ∃ px : RowPixels, exec (.imgRow img row) s = .next { s with ret := .row px } ∧
      ∀ i : Fin 8, px[i] = ⟨bs.getD (24 * row + 3 * i.val) 0, bs.getD (24 * row + 3 * i.val + 1) 0,
        bs.getD (24 * row + 3 * i.val + 2) 0⟩)

/-- R143, R144, R146: writing a pixel or a byte of a slot its agent owns stores those bytes at their offset in the slot and
changes no other byte of the arena and no other cell. That SET_PIXEL's x is the column and y the row is general knowledge, the spec's
decision D21 (log 24). -/
def Obligations.SlotWritesStoreOnlyTheirBytes : Prop :=
  ∀ (s : State) (who : Agent) (h : Slot) (c : Color), s.phase ≠ .halted → owns who h s = true →
    (∀ row col : Nat, row < 8 → col < 8 → ∃ m,
      exec (.imgIndexWr (.slot who h) row col c) s = .next { s with mem := m } ∧
      exec (.setPixel (.slot who h) col row c) s = .next { s with mem := m } ∧
      Memory.read m (slotAddr h (3 * (8 * row + col))) = some c.r ∧
      Memory.read m (slotAddr h (3 * (8 * row + col)) + 1) = some c.g ∧
      Memory.read m (slotAddr h (3 * (8 * row + col)) + 2) = some c.b ∧
      ∀ x, x < slotAddr h (3 * (8 * row + col)) ∨ slotAddr h (3 * (8 * row + col)) + 3 ≤ x →
        Memory.read m x = Memory.read s.mem x) ∧
    (∀ (k : Nat) (v : Byte), k < 192 → ∃ m,
      exec (.imgByteWr (.slot who h) k v) s = .next { s with mem := m } ∧
      Memory.read m (slotAddr h k) = some v ∧ ∀ x, x ≠ slotAddr h k → Memory.read m x = Memory.read s.mem x)

/-- R143, R144, R146: writing a pixel or a byte of an image value returns the image with those bytes replaced; a SET_PIXEL out
of bounds returns it unchanged. That SET_PIXEL's x is the column and y the row is general knowledge, the spec's decision D21
(log 24). -/
def Obligations.ValueWritesReturnTheImage : Prop :=
  ∀ (s : State) (v : Image) (c : Color), s.phase ≠ .halted →
    (∀ row col : Nat, row < 8 → col < 8 → ∃ w : Image,
      exec (.imgIndexWr (.value v) row col c) s = .next { s with ret := .image w } ∧
      exec (.setPixel (.value v) col row c) s = .next { s with ret := .image w } ∧
      (∀ k : Fin 192, w[k] = if k.val = 3 * (8 * row + col) then c.r else if k.val = 3 * (8 * row + col) + 1 then c.g
        else if k.val = 3 * (8 * row + col) + 2 then c.b else v[k])) ∧
    (∀ (k : Nat) (b : Byte), k < 192 → ∃ w : Image,
      exec (.imgByteWr (.value v) k b) s = .next { s with ret := .image w } ∧
      ∀ j : Fin 192, w[j] = if j.val = k then b else v[j]) ∧
    (∀ x y : Int, (x < 0 ∨ 7 < x ∨ y < 0 ∨ 7 < y) →
      exec (.setPixel (.value v) x y c) s = .next { s with ret := .image v })

/-- R142, R143, R144, R145, R146, R148: an index out of range is fatal for the indexing operations, whatever the image operand,
and writes nothing; SET_PIXEL out of bounds changes nothing. The flat offset's range is the spec's decision D29 (log 30). -/
def Obligations.OutOfRangeIsFatalOnlyForIndexing : Prop :=
  ∀ (s : State) (img : ImgRef) (c : Color) (v : Byte), s.phase ≠ .halted →
    (∀ row col : Int, (row < 0 ∨ 7 < row ∨ col < 0 ∨ 7 < col) →
      exec (.imgIndexRd img row col) s =
        .next { s with fatal := some .indexOutOfRange, phase := .halted, acts := [], locks := [] } ∧
      exec (.imgIndexWr img row col c) s =
        .next { s with fatal := some .indexOutOfRange, phase := .halted, acts := [], locks := [] } ∧
      ∀ who h, exec (.setPixel (.slot who h) col row c) s = .next s) ∧
    (∀ k : Int, (k < 0 ∨ 191 < k) →
      exec (.imgByteRd img k) s =
        .next { s with fatal := some .indexOutOfRange, phase := .halted, acts := [], locks := [] } ∧
      exec (.imgByteWr img k v) s =
        .next { s with fatal := some .indexOutOfRange, phase := .halted, acts := [], locks := [] }) ∧
    (∀ row : Int, (row < 0 ∨ 7 < row) →
      exec (.imgRow img row) s =
        .next { s with fatal := some .indexOutOfRange, phase := .halted, acts := [], locks := [] })

/-- R68, R164: an image operation in range on a slot its agent does not own is fatal, SET_PIXEL too: there the model follows R164,
"an access through a slot that the accessing actor does not own", over R146's "Exceptions: none, ever" (log 29). That it is
BadHandle is the spec's decision D28. On an owned slot a read one of whose bytes the memory does not list stops with the model's
fault (log 7), in states that no run from reset reaches. -/
def Obligations.SlotAccessNeedsOwnershipAndContents : Prop :=
  ∀ (s : State) (who : Agent) (h : Slot) (row col k : Nat) (c : Color) (v : Byte), s.phase ≠ .halted →
    row < 8 → col < 8 → k < 192 →
    (owns who h s = false →
      ∀ i ∈ [Instr.imgIndexRd (.slot who h) row col, .imgIndexWr (.slot who h) row col c, .setPixel (.slot who h) col row c,
          .imgRow (.slot who h) row, .imgByteRd (.slot who h) k, .imgByteWr (.slot who h) k v],
        exec i s = .next { s with fatal := some .badHandle, phase := .halted, acts := [], locks := [] }) ∧
    (owns who h s = true →
      (∀ j, j < 3 → Memory.read s.mem (slotAddr h (3 * (8 * row + col) + j)) = none →
        exec (.imgIndexRd (.slot who h) row col) s = .fault (.unwrittenByte h)) ∧
      (∀ j, j < 24 → Memory.read s.mem (slotAddr h (24 * row + j)) = none →
        exec (.imgRow (.slot who h) row) s = .fault (.unwrittenByte h)) ∧
      (Memory.read s.mem (slotAddr h k) = none → exec (.imgByteRd (.slot who h) k) s = .fault (.unwrittenByte h)))

/-! ## Pool -/

/-- R161: POOL_ALLOC takes a free slot, writes the initial image into it and nothing else, and gives its handle to the agent;
with no free slot it is fatal. R161 says that it must run inside a critical section or inside RX; that POOL_ALLOC executed by
itself, as one step, has this effect for every agent, with a section open or none, is the model's choice (log 39), and that it has
it in OFF and INIT too (log 48). -/
def Obligations.AllocationTakesAFreeSlot : Prop :=
  ∀ (s : State) (who : Agent) (init : Image), s.phase ≠ .halted →
    (s.free ≠ [] → ∃ (h : Slot) (m : Memory) (d : Nat), h ∈ s.free ∧
      exec (.poolAlloc who init) s =
        .next { s with free := s.free.erase h, mem := m, held := (who, h) :: s.held, draws := d, ret := .handle h } ∧
      Memory.readBlock m (slotAddr h 0) 192 = some init.toList ∧
      ∀ x, ¬ inSlot h x → Memory.read m x = Memory.read s.mem x) ∧
    (s.free = [] →
      exec (.poolAlloc who init) s =
        .next { s with fatal := some .poolExhausted, phase := .halted, acts := [], locks := [] })

/-- R162, R164: POOL_FREE moves the caller's handle to the free list, from where the caller has it, and changes nothing else,
not a byte; a handle that is free or not the caller's is fatal (the spec's decision D28). R162 says that it must run inside a
critical section or inside RX; that POOL_FREE executed by itself, as one step, has this effect for every agent, with a section
open or none, is the model's choice (log 39), and that it has it in OFF and INIT too (log 48). -/
def Obligations.FreeingReturnsTheHandle : Prop :=
  ∀ (s : State) (who : Agent) (h : Slot), s.phase ≠ .halted →
    (h ∉ s.free → (who, h) ∈ s.held →
      exec (.poolFree who h) s = .next { s with free := insertFree h s.free, held := s.held.erase (who, h) }) ∧
    (h ∉ s.free → (Agent.rx, h) ∉ s.held → s.asm = some h →
      exec (.poolFree .rx h) s = .next { s with free := insertFree h s.free, asm := none }) ∧
    (h ∉ s.free → (Agent.disp, h) ∉ s.held → s.cur = some h →
      exec (.poolFree .disp h) s = .next { s with free := insertFree h s.free, cur := none }) ∧
    ((h ∈ s.free ∨ owns who h s = false) →
      exec (.poolFree who h) s =
        .next { s with fatal := some .badHandle, phase := .halted, acts := [], locks := [] }) ∧
    (∀ x, x ∈ insertFree h s.free ↔ x = h ∨ x ∈ s.free)

/-- R166, R167: NEXT_REPLACE installs the caller's handle and frees the displaced one; NEXT_TAKE empties the cell and gives
the handle to the caller; neither changes another cell. A handle that is free or not the caller's is BadHandle, by the spec's
decision D28, before any cell is changed, the model's choice (log 29). -/
def Obligations.NextCellIsAMailbox : Prop :=
  ∀ (s : State) (who : Agent) (h : Slot), s.phase ≠ .halted →
    (h ∉ s.free → (who, h) ∈ s.held → s.next = none →
      exec (.nextReplace who h) s = .next { s with next := some h, held := s.held.erase (who, h) }) ∧
    (h ∉ s.free → (Agent.rx, h) ∉ s.held → s.asm = some h → s.next = none →
      exec (.nextReplace .rx h) s = .next { s with next := some h, asm := none }) ∧
    (∀ o, h ∉ s.free → o ∉ s.free → (who, h) ∈ s.held → s.next = some o →
      exec (.nextReplace who h) s =
        .next { s with next := some h, held := s.held.erase (who, h), free := insertFree o s.free }) ∧
    (∀ o, h ∉ s.free → o ∉ s.free → (Agent.rx, h) ∉ s.held → s.asm = some h → s.next = some o →
      exec (.nextReplace .rx h) s = .next { s with next := some h, asm := none, free := insertFree o s.free }) ∧
    (h ∉ s.free → (Agent.disp, h) ∉ s.held → s.cur = some h → s.next = none →
      exec (.nextReplace .disp h) s = .next { s with next := some h, cur := none }) ∧
    (∀ o, h ∉ s.free → o ∉ s.free → (Agent.disp, h) ∉ s.held → s.cur = some h → s.next = some o →
      exec (.nextReplace .disp h) s = .next { s with next := some h, cur := none, free := insertFree o s.free }) ∧
    ((h ∈ s.free ∨ owns who h s = false) →
      exec (.nextReplace who h) s =
        .next { s with fatal := some .badHandle, phase := .halted, acts := [], locks := [] }) ∧
    (s.next = some h →
      exec (.nextTake who) s = .next { s with next := none, held := (who, h) :: s.held, ret := .optHandle (some h) }) ∧
    (s.next = none → exec (.nextTake who) s = .next { s with ret := .optHandle none })

/-! ## The driver -/

/-- R176, R177, R178, R179: SET_LINE gives the line the level and no other line another, and appends the event; a pulse is two
writes, away from the idle level and back; DELAY_MS appends the delay and holds the lines. -/
def Obligations.LineMicroOperations : Prop :=
  ∀ s : State, s.phase ≠ .halted →
    (∀ (l : Line) (v : Level), ∃ ls,
      exec (.setLine l v) s = .next { s with lines := ls, trace := s.trace ++ [.set l v] } ∧
      Lines.level ls l = v ∧ ∀ l', l' ≠ l → Lines.level ls l' = Lines.level s.lines l') ∧
    exec .pulseSck s = .next { s with
      lines := { s.lines with sck := Config.sckIdle }
      trace := s.trace ++ [.set .sck (!Config.sckIdle), .set .sck Config.sckIdle] } ∧
    exec .pulseLat s = .next { s with
      lines := { s.lines with lat := Config.latIdle }
      trace := s.trace ++ [.set .lat (!Config.latIdle), .set .lat Config.latIdle] } ∧
    (∀ n : Nat, exec (.delayMs n) s = .next { s with trace := s.trace ++ [.delay n] })

/-- R181: SHIFT_BYTE sends the bits 7 down to 0, each as a write of SDA and a clock pulse. -/
def Obligations.ShiftByteSendsMsbFirst : Prop :=
  ∀ (s : State) (v : Byte), s.phase ≠ .halted →
    exec (.shiftByte v) s = .next { s with
      lines := { s.lines with sda := v.getLsbD 0, sck := Config.sckIdle }
      trace := s.trace ++ ([7, 6, 5, 4, 3, 2, 1, 0] : List Nat).flatMap fun k =>
        [.set .sda (v.getLsbD k), .set .sck (!Config.sckIdle), .set .sck Config.sckIdle] }

/-- R180, R186, R96: DRV_INIT performs its fixed sequence of 296 events, 144 one-bits committed as one frame by one latch pulse, writes no
row line, and leaves the control lines as R180 says. -/
def Obligations.DriverInitSequence : Prop :=
  ∀ s : State, s.phase ≠ .halted → ∃ evs,
    exec .drvInit s = .next { s with
      lines := { s.lines with rst := true, sb := true, sda := true, sck := Config.sckIdle, lat := Config.latIdle }
      trace := s.trace ++ evs } ∧
    evs = ([.set .rst false, .delay 100, .set .rst true, .set .sb false, .set .sda true] : List LineEvent) ++
      (List.replicate 144 ([.set .sck (!Config.sckIdle), .set .sck Config.sckIdle] : List LineEvent)).flatten ++
      ([.set .lat (!Config.latIdle), .set .lat Config.latIdle, .set .sb true] : List LineEvent) ∧
    evs.length = 296 ∧ shiftedBits s.lines.sda evs = List.replicate 144 true ∧
    committedFrames s.lines.sda [] evs = [List.replicate 144 true]

/-- R182, R186: SEND_ROW performs 580 events; where each data bit, the deactivation, the latch pulse and the activation
stand; the lines are left at the levels those events give them. The clamp of the doubling (D3; log 9) and the place of the deactivation (D18; log 21) are the spec's decisions. -/
def Obligations.SendRowEventPositions : Prop :=
  ∀ (s : State) (row : Fin 8) (px : RowPixels), s.phase ≠ .halted → ∃ (evs : List LineEvent) (ls : Lines) (g : RowPixels),
    exec (.sendRow row.val px) s = .next { s with lines := ls, trace := s.trace ++ evs } ∧
    ls = Lines.afterAll s.lines evs ∧ evs = rowEvents row g ∧
    (∀ (i : Fin 8) (ch : Channel), (g[i].channel ch).toNat = min (2 * (Config.gammaLut (px[i].channel ch)).toNat) 255) ∧
    evs.length = 580 ∧
    (∀ t : Nat, t < 72 → evs[3 * t]? = some (.set .sda (rowBit g t)) ∧
      evs[3 * t + 1]? = some (.set .sck (!Config.sckIdle)) ∧ evs[3 * t + 2]? = some (.set .sck Config.sckIdle)) ∧
    evs[216]? = some (.set (.row (row + 7)) false) ∧
    (∀ t : Nat, 72 ≤ t → t < 192 → evs[3 * t + 1]? = some (.set .sda (rowBit g t)) ∧
      evs[3 * t + 2]? = some (.set .sck (!Config.sckIdle)) ∧ evs[3 * t + 3]? = some (.set .sck Config.sckIdle)) ∧
    evs[577]? = some (.set .lat (!Config.latIdle)) ∧ evs[578]? = some (.set .lat Config.latIdle) ∧
    evs[579]? = some (.set (.row row) true)

/-- R182, R183, R184, R189: after SEND_ROW the previous row's line is low, the row's line is high, the other row lines and SB and
RST are as before, SCK and LAT are idle. -/
def Obligations.SendRowLeavesTheLines : Prop :=
  ∀ (ls : Lines) (row : Fin 8) (g : RowPixels),
    (Lines.afterAll ls (rowEvents row g)).rows[row] = true ∧
    (Lines.afterAll ls (rowEvents row g)).rows[row + 7] = false ∧
    (∀ i : Fin 8, i ≠ row → i ≠ row + 7 → (Lines.afterAll ls (rowEvents row g)).rows[i] = ls.rows[i]) ∧
    (Lines.afterAll ls (rowEvents row g)).sb = ls.sb ∧ (Lines.afterAll ls (rowEvents row g)).rst = ls.rst ∧
    (Lines.afterAll ls (rowEvents row g)).sck = Config.sckIdle ∧
    (Lines.afterAll ls (rowEvents row g)).lat = Config.latIdle

/-- R185: from lines on which only the previous row may be lit, at every instant of SEND_ROW at most one row line is high,
and none from the deactivation to the activation. The place of the deactivation, event 216, is the spec's decision D18 (log 21). -/
def Obligations.AtMostOneRowAtEveryInstant : Prop :=
  ∀ (ls : Lines) (row : Fin 8) (g : RowPixels) (n : Nat), (∀ i : Fin 8, ls.rows[i] = true → i = row + 7) →
    AtMostOneRow (Lines.afterAll ls ((rowEvents row g).take n)) ∧
    (217 ≤ n → n < 580 → ∀ i : Fin 8, (Lines.afterAll ls ((rowEvents row g).take n)).rows[i] = false)

/-- R94, R98: the bits a row shifts out are the 192 bits of the row frame, committed as one frame, and the writes that change
nothing on the wire do not carry any of them. -/
def Obligations.RowShiftsItsFrame : Prop :=
  ∀ (ls : Lines) (row : Fin 8) (g : RowPixels), ls.sck = Config.sckIdle →
    shiftedBits ls.sda (rowEvents row g) = (List.range 192).map (rowBit g) ∧
    shiftedBits ls.sda (visible ls (rowEvents row g)) = (List.range 192).map (rowBit g) ∧
    committedFrames ls.sda [] (rowEvents row g) = [(List.range 192).map (rowBit g)] ∧
    (ls.lat = Config.latIdle →
      committedFrames ls.sda [] (visible ls (rowEvents row g)) = [(List.range 192).map (rowBit g)])

/-- R187: a row outside 0..7 is fatal before any line is written (the spec's decision D17; log 20). -/
def Obligations.BadRowIsFatal : Prop :=
  ∀ (s : State) (row : Int) (px : RowPixels), s.phase ≠ .halted → row < 0 ∨ 7 < row →
    exec (.sendRow row px) s =
      .next { s with fatal := some .rowOutOfRange, phase := .halted, acts := [], locks := [] }

/-! ## The deframer and NoticeChange -/

/-- R201, R202, R203: SYNC starts a frame in every state; DATA is dropped while awaiting a sentinel, and is stored at the cursor
of the assembly buffer, which is the only byte that changes, below offset 191. -/
def Obligations.DeframerStoresAtTheCursor : Prop :=
  ∀ (s : State) (d : Byte), s.phase ≠ .halted → d ≠ 0xFF#8 →
    exec .sync s = .next { s with rxState := .filling 0 } ∧
    (s.rxState = .awaitingSync → exec (.data d) s = .next s) ∧
    (∀ (a : Slot) (c c' : Fin 192), s.rxState = .filling c → c'.val = c.val + 1 → s.asm = some a → ∃ m,
      exec (.data d) s = .next { s with mem := m, rxState := .filling c' } ∧
      Memory.read m (slotAddr a c.val) = some d ∧
      ∀ x, x ≠ slotAddr a c.val → Memory.read m x = Memory.read s.mem x)

/-- R204: the byte that fills offset 191 completes the frame: the assembly buffer is published, what was pending is freed, a fresh
buffer is allocated, NoticeChange is pended, the deframer waits for a sentinel; only that byte and the fresh slot are
written. The fresh buffer's contents are the spec's open parameter ASM_FILL (D12; log 14). -/
def Obligations.LastByteCompletesTheFrame : Prop :=
  ∀ (s : State) (d : Byte) (a h : Slot), s.phase ≠ .halted → d ≠ 0xFF#8 → s.rxState = .filling 191 → s.asm = some a →
    s.held = [] → h ≠ a → OnlySlot s h → ∃ m,
      exec (.data d) s = .next { s with
        mem := m, next := some a, asm := some h, free := [], noticePending := s.noticePending + 1
        rxState := .awaitingSync } ∧
      Memory.read m (slotAddr a 191) = some d ∧ Memory.readBlock m (slotAddr h 0) 192 = some Config.asmFill.toList ∧
      ∀ x, x ≠ slotAddr a 191 → ¬ inSlot h x → Memory.read m x = Memory.read s.mem x

/-- R200: RX_BYTE consumes one byte and runs the operation it encodes. -/
def Obligations.ReceiveByteRunsTheOperation : Prop :=
  ∀ (s : State) (b : Byte) (rest : List Byte), s.phase = .run → s.rxFifo = b :: rest →
    (b = 0xFF#8 → exec .rxByte s = .next { s with rxFifo := rest, rxState := .filling 0 }) ∧
    (b ≠ 0xFF#8 → exec .rxByte s = exec (.data b) { s with rxFifo := rest }) ∧
    (b ≠ 0xFF#8 → s.rxState = .awaitingSync → exec .rxByte s = .next { s with rxFifo := rest })

/-- R208: a sentinel and 192 bytes other than 0xFF, in a good state, publish exactly those bytes, in 193 steps. That the
completion is counted, `noticePending + 1`, is the spec's decision D14 (log 17). -/
def Obligations.FrameIsPublishedWhole : Prop :=
  ∀ (s : State) (a : Slot) (bs rest : List Byte), GoodState s → s.phase = .run → s.stim = [] → s.asm = some a →
    s.rxFifo = 0xFF#8 :: (bs ++ rest) → bs.length = 192 → (∀ b ∈ bs, b ≠ 0xFF#8) →
    ∃ t, Sys2Proof.core.run 193 s = .next t ∧ t.next = some a ∧ slotBytes t a = some bs ∧ t.rxFifo = rest ∧
      t.rxState = .awaitingSync ∧ t.noticePending = s.noticePending + 1 ∧ t.changes = s.changes ∧ t.cur = s.cur ∧
      t.trace = s.trace ∧ t.lines = s.lines

/-- R201, R205: a sentinel followed by fewer than 192 bytes surfaces nothing; the next sentinel starts over. -/
def Obligations.PartialFrameSurfacesNothing : Prop :=
  ∀ (s : State) (bs rest : List Byte), GoodState s → s.phase = .run → s.stim = [] →
    s.rxFifo = 0xFF#8 :: (bs ++ 0xFF#8 :: rest) → bs.length < 192 → (∀ b ∈ bs, b ≠ 0xFF#8) →
    ∃ t, Sys2Proof.core.run (bs.length + 2) s = .next t ∧ t.rxState = .filling 0 ∧ t.rxFifo = rest ∧
      t.next = s.next ∧ t.asm = s.asm ∧ t.cur = s.cur ∧ t.free = s.free ∧ t.noticePending = s.noticePending ∧
      t.changes = s.changes ∧ t.trace = s.trace

/-- R206: NOTICE_CHANGE takes one pending completion and increments the counter, which wraps from 2^CNT_W - 1 to 0; nothing else
changes. The trigger of R206 also asks that no higher-priority actor is ready; that NOTICE_CHANGE executed by itself has its effect
with a byte waiting or a tick due too is the model's choice (log 37). That completions are counted, and CNT_W = 32, are the spec's
decisions D14 and D9 (log 17, log 12). -/
def Obligations.NoticeIncrementsTheCounter : Prop :=
  ∀ (s : State) (n : Nat), s.phase = .run → s.noticePending = n + 1 → ∃ c : BitVec Config.cntW,
    exec .noticeChange s = .next { s with noticePending := n, changes := c } ∧
    c.toNat = (s.changes.toNat + 1) % 2 ^ 32 ∧ (s.changes = 0xFFFFFFFF#32 → c = 0)

/-! ## The scanout engine -/

/-- R220, R221, R222: a display tick that does not wrap sends row `row` of the current image and advances the row; the arena and
the pool are untouched. -/
def Obligations.DisplayTickSendsARow : Prop :=
  ∀ (s : State) (c : Slot) (bs : List Byte), s.phase = .run → s.dispDue = true → s.cur = some c → s.row ≠ 7 →
    slotBytes s c = some bs → ∃ (g : RowPixels) (evs : List LineEvent),
      evs = rowEvents s.row g ∧
      exec .displayTick s = .next { s with
        dispDue := false, lines := Lines.afterAll s.lines evs, trace := s.trace ++ evs, row := s.row + 1 } ∧
      ∀ t, t < 192 → rowBit g t = (gamma (bs.getD (24 * s.row.val + 23 - t / 8) 0)).getLsbD (7 - t % 8)

/-- R220, R221, R223: the display tick of row 7 sends row 7 of the current image, returns the row to 0 and adopts the pending image, if there is one, freeing the old
one. -/
def Obligations.DisplayTickWrapsAndSwaps : Prop :=
  ∀ (s : State) (c : Slot) (bs : List Byte), s.phase = .run → s.dispDue = true → s.cur = some c → s.row = 7 →
    slotBytes s c = some bs → c ∉ s.free → ∃ (g : RowPixels) (evs : List LineEvent),
      evs = rowEvents 7 g ∧
      (s.next = none → exec .displayTick s = .next { s with
        dispDue := false, lines := Lines.afterAll s.lines evs, trace := s.trace ++ evs, row := 0 }) ∧
      (∀ h, s.next = some h → exec .displayTick s = .next { s with
        dispDue := false, lines := Lines.afterAll s.lines evs, trace := s.trace ++ evs, row := 0
        cur := some h, next := none, free := insertFree c s.free }) ∧
      ∀ t, t < 192 → rowBit g t = (gamma (bs.getD (24 * 7 + 23 - t / 8) 0)).getLsbD (7 - t % 8)

/-- R223: FRAME_SWAP makes the pending image the current one and frees the old handle; with nothing pending nothing changes. R223
has it only when the advance has just returned the row to 0, inside DISPLAY_TICK; that FRAME_SWAP executed by itself does the same
at every row and in OFF and INIT is the model's choice (log 48). -/
def Obligations.FrameSwapAdoptsThePendingImage : Prop :=
  ∀ (s : State) (c : Slot), s.phase ≠ .halted → s.cur = some c → c ∉ s.free →
    (s.next = none → exec .frameSwap s = .next s) ∧
    (∀ h, s.next = some h →
      exec .frameSwap s = .next { s with cur := some h, next := none, free := insertFree c s.free })

/-- R227: a pending image that nothing displaces is adopted after the display ticks that are left of the frame, at most 8. The
count of steps, three a tick, is that of the model's stimulus (log 1, log 2): ENV's move, the activation, the end of the run to
quiescence. -/
def Obligations.PendingImageIsAdoptedWithinAFrame : Prop :=
  ∀ (s : State) (h : Slot), GoodState s → s.phase = .run → s.next = some h → s.rxFifo = [] → s.dispDue = false →
    s.saverDue = false → s.noticePending = 0 → s.stim = script (List.replicate (8 - s.row.val) [.dispDue]) →
    ∃ t, Sys2Proof.core.run (3 * (8 - s.row.val)) s = .next t ∧ t.cur = some h ∧ t.next = none ∧ t.row = 0 ∧ t.stim = []

/-! ## The screensaver -/

/-- R236, R237, R238: an idle screensaver tick frees what is pending, installs the frame of the present offset in the slot that is
then free, and steps the offset; no other byte of the arena is written. A tick that sees the counter changed takes it over,
restarts the offset, and touches nothing else. -/
def Obligations.SaverInstallsOrStandsBack : Prop :=
  ∀ s : State, s.phase = .run → s.saverDue = true →
    (∀ h : Slot, s.changes = s.lastSeen → OnlySlot s h → ∃ m,
      exec .saverTick s = .next { s with
        saverDue := false, mem := m, next := some h, free := []
        offset := if s.offset - 1 < -120 then 30 else s.offset - 1 } ∧
      Memory.readBlock m (slotAddr h 0) 192 = some (Config.saverFrame s.offset).toList ∧
      ∀ x, ¬ inSlot h x → Memory.read m x = Memory.read s.mem x) ∧
    (s.changes ≠ s.lastSeen →
      exec .saverTick s = .next { s with saverDue := false, lastSeen := s.changes, offset := 30 })

/-- R238, R241 (a): the offset cycles through -120..30 with period 151, and no shorter one. -/
def Obligations.OffsetCyclesIn151Ticks : Prop :=
  ∀ o : Int, -120 ≤ o → o ≤ 30 →
    (∀ k : Nat, -120 ≤ nextOffset^[k] o ∧ nextOffset^[k] o ≤ 30) ∧ nextOffset^[151] o = o ∧
    ∀ k : Nat, 0 < k → k < 151 → nextOffset^[k] o ≠ o

/-- R304: a screensaver tick that runs before the NoticeChange of a published frame discards the frame. -/
def Obligations.SaverCanDiscardAnUnnoticedFrame : Prop :=
  ∀ (s : State) (h : Slot), GoodState s → s.phase = .run → s.stim = [] → s.rxFifo = [] → s.dispDue = false →
    s.saverDue = true → s.next = some h → 0 < s.noticePending → s.changes = s.lastSeen →
    ∃ t, step s = .next t ∧ t.next = some h ∧ slotBytes t h = some (Config.saverFrame s.offset).toList ∧
      t.noticePending = s.noticePending ∧ t.changes = s.changes

/-! ## LOCK -/

/-- R262: entering a section raises the effective priority to at least the ceiling of its cells, leaving it restores what was open
before; neither changes another cell. That the level is the ceiling is the spec's decision D30 (log 31). Leaving with no section
open, or with another agent's innermost, is refused, the model's choice (log 41). -/
def Obligations.LockRaisesAndRestores : Prop :=
  ∀ (s : State) (who : Agent) (cells : List Shared), s.phase ≠ .halted →
    exec (.lock who (.enter cells)) s = .next { s with locks := (who, cells) :: s.locks } ∧
    State.eff { s with locks := (who, cells) :: s.locks } = max s.eff (ceiling cells) ∧
    exec (.lock who .leave) { s with locks := (who, cells) :: s.locks } = .next s ∧
    (s.locks = [] → exec (.lock who .leave) s = .refused .noSection) ∧
    (∀ w cs rest, s.locks = (w, cs) :: rest → w ≠ who → exec (.lock who .leave) s = .refused .noSection)

/-! ## Where the model stops by name -/

/-- The model's choices (log 4, log 5, log 6, log 7, log 29, log 37, log 38, log 40): an activation executed without its trigger,
and DATA with the operand 0xFF, are refused; an operation that needs a buffer its agent does not have is fatal; RESET leaves the arena with fresh free values, no handle in a local variable, no open section and
nothing returned, leaves the stimulus alone and counts itself among the free choices. -/
def Obligations.ModelChoicesAtTheEdges : Prop :=
  ∀ s : State,
    (s.phase ≠ .halted →
      exec (.data 0xFF#8) s = .refused .notPayload ∧
      (s.phase ≠ .run ∨ s.rxFifo = [] → exec .rxByte s = .refused .notTriggered) ∧
      (s.phase ≠ .run ∨ s.dispDue = false → exec .displayTick s = .refused .notTriggered) ∧
      (s.phase ≠ .run ∨ s.saverDue = false → exec .saverTick s = .refused .notTriggered) ∧
      (s.phase ≠ .run ∨ s.noticePending = 0 → exec .noticeChange s = .refused .notTriggered) ∧
      (s.phase ≠ .off → exec .boot s = .refused .notTriggered) ∧
      (∀ c d, s.rxState = .filling c → d ≠ 0xFF#8 → s.asm = none → exec (.data d) s =
        .next { s with fatal := some .badHandle, phase := .halted, acts := [], locks := [] }) ∧
      (s.phase = .run → s.dispDue = true → s.cur = none → exec .displayTick s =
        .next { s with dispDue := false, fatal := some .badHandle, phase := .halted, acts := [], locks := [] })) ∧
    (∃ t, exec .reset s = .next t ∧
      (∀ x, Memory.read t.mem x = if x < 576 then some (Config.offByte (s.draws + 1) x) else none) ∧
      t.held = [] ∧ t.locks = [] ∧ t.ret = .nothing ∧ t.stim = s.stim ∧ t.draws = s.draws + 1)

/-! ## Endless runs -/

/-- R312, R264, R39: in a fair endless run without RESET every byte at the head of `rx_fifo` is consumed, behind it what ENV has
appended meanwhile; and there is a fair endless run, of a byte stream that never ends, in which neither tick is ever served, nor
the pending NOTICE_CHANGE, and no line moves. That "true infinitely often" speaks of the flags is the model's reading (log 45). -/
def Obligations.FairRunsConsumeBytesAndMayStarveTheRest : Prop :=
  (∀ (env : Nat → Option EnvMove) (run : Nat → State), EndlessRun env run → Fair env run → GoodState (run 0) →
    (run 0).phase = .run → (∀ n, env n ≠ some .reset) →
    ∀ (n : Nat) (b : Byte) (rest : List Byte), (run n).rxFifo = b :: rest → ∃ (k : Nat) (more : List Byte), n ≤ k ∧
      env k = none ∧ (run k).rxFifo = b :: (rest ++ more) ∧ (run (k + 1)).rxFifo = rest ++ more) ∧
  (∃ (env : Nat → Option EnvMove) (run : Nat → State), EndlessRun env run ∧ Fair env run ∧ GoodState (run 0) ∧
    (run 0).phase = .run ∧ (∀ n, env n ≠ some .reset) ∧
    ∀ n, (run n).dispDue = true ∧ (run n).saverDue = true ∧ (run n).noticePending = 1 ∧ (run n).trace = (run 0).trace ∧
      (run n).changes = (run 0).changes)
end

