-- ==== Sys2Proof/Laws/Memory.lean ====
section
/-! SUPPORT. The laws of the arena: read after write, reads elsewhere, and the canonical form, which every memory operation
keeps. -/

namespace Sys2Proof.Machine

theorem Memory.read_append (m n : Memory) (x : Nat) :
    Memory.read (m ++ n) x = (Memory.read m x).or (Memory.read n x) := by
  induction m with
  | nil => simp [Memory.read]
  | cons c m ih =>
    by_cases h : c.1 = x
    · simp [Memory.read, h]
    · simp [Memory.read, h, ih]

theorem Memory.read_filter (p : Nat → Bool) (m : Memory) (x : Nat) :
    Memory.read (m.filter fun c => p c.1) x = if p x then Memory.read m x else none := by
  induction m with
  | nil => simp [Memory.read]
  | cons c m ih =>
    by_cases hc : p c.1 = true
    · by_cases h : c.1 = x
      · subst h; simp [Memory.read, hc]
      · simp [hc, Memory.read, h, ih]
    · by_cases h : c.1 = x
      · subst h; simp [hc, ih]
      · simp [hc, Memory.read, h, ih]

theorem Memory.read_cells (bs : List Byte) (a x : Nat) :
    Memory.read (Memory.cells a bs) x = if a ≤ x then bs[x - a]? else none := by
  induction bs generalizing a with
  | nil => simp [Memory.cells, Memory.read]
  | cons b bs ih =>
    by_cases h : a = x
    · subst h; simp [Memory.cells, Memory.read]
    · simp only [Memory.cells, Memory.read, h, if_false, ih]
      by_cases h1 : a ≤ x
      · have h2 : a + 1 ≤ x := by omega
        have h3 : x - a = (x - (a + 1)) + 1 := by omega
        simp [h1, h2, h3]
      · have h2 : ¬ a + 1 ≤ x := by omega
        simp [h1, h2]

/-- A read inside the written bytes gives the byte written there. -/
theorem Memory.read_write_inside (m : Memory) (a : Nat) (bs : List Byte) (i : Nat) (h : i < bs.length) :
    Memory.read (Memory.write m a bs) (a + i) = some bs[i] := by
  have h1 := Memory.read_filter (fun x => decide (x < a)) m (a + i)
  have h2 := Memory.read_cells bs a (a + i)
  simp only [Memory.write, Memory.read_append]
  rw [h1, h2]
  simp [h]

/-- A read outside the written bytes gives what it gave before. -/
theorem Memory.read_write_outside (m : Memory) (a : Nat) (bs : List Byte) (x : Nat)
    (h : x < a ∨ a + bs.length ≤ x) : Memory.read (Memory.write m a bs) x = Memory.read m x := by
  have h1 := Memory.read_filter (fun y => decide (y < a)) m x
  have h2 := Memory.read_filter (fun y => decide (a + bs.length ≤ y)) m x
  simp only [Memory.write, Memory.read_append]
  rw [h1, h2, Memory.read_cells bs a x]
  rcases h with h | h
  · have h3 : ¬ a + bs.length ≤ x := by omega
    have h4 : ¬ a ≤ x := by omega
    simp [h, h3, h4]
  · have h3 : ¬ x < a := by omega
    have h4 : bs[x - a]? = none := by simp; omega
    simp [h, h3, h4]

/-! ## The canonical form -/

theorem Memory.risingFrom_iff (n : Nat) (m : Memory) :
    Memory.risingFrom n m = true ↔ (∀ c ∈ m, n ≤ c.1) ∧ m.Pairwise (fun c d => c.1 < d.1) := by
  induction m generalizing n with
  | nil => simp [Memory.risingFrom]
  | cons c m ih =>
    simp only [Memory.risingFrom, Bool.and_eq_true, decide_eq_true_eq, ih, List.mem_cons, forall_eq_or_imp,
      List.pairwise_cons]
    constructor
    · rintro ⟨h1, h2, h3⟩
      exact ⟨⟨h1, fun d hd => by have := h2 d hd; omega⟩, fun d hd => by have := h2 d hd; omega, h3⟩
    · rintro ⟨⟨h1, _⟩, h3, h4⟩
      exact ⟨h1, fun d hd => by have := h3 d hd; omega, h4⟩

theorem Memory.wf_iff (m : Memory) :
    Memory.wf m = true ↔ m.Pairwise (fun c d => c.1 < d.1) ∧ ∀ c ∈ m, c.1 < 576 := by
  simp [Memory.wf, Memory.risingFrom_iff]

theorem Memory.cells_bounds (bs : List Byte) (a : Nat) :
    ∀ c ∈ Memory.cells a bs, a ≤ c.1 ∧ c.1 < a + bs.length := by
  induction bs generalizing a with
  | nil => simp [Memory.cells]
  | cons b bs ih =>
    simp only [Memory.cells, List.mem_cons, List.length_cons, forall_eq_or_imp]
    exact ⟨by omega, fun c hc => by have := ih (a + 1) c hc; omega⟩

theorem Memory.cells_pairwise (bs : List Byte) (a : Nat) :
    (Memory.cells a bs).Pairwise (fun c d => c.1 < d.1) := by
  induction bs generalizing a with
  | nil => simp [Memory.cells]
  | cons b bs ih =>
    simp only [Memory.cells, List.pairwise_cons]
    exact ⟨fun c hc => by have := Memory.cells_bounds bs (a + 1) c hc; simp; omega, ih (a + 1)⟩

/-- A write within the arena keeps the canonical form. -/
theorem Memory.wf_write (m : Memory) (a : Nat) (bs : List Byte) (h : Memory.wf m = true)
    (ha : a + bs.length ≤ 576) : Memory.wf (Memory.write m a bs) = true := by
  rw [Memory.wf_iff] at h ⊢
  obtain ⟨hp, hb⟩ := h
  have hc := Memory.cells_bounds bs a
  refine ⟨?_, ?_⟩
  · simp only [Memory.write, List.pairwise_append, List.mem_append, List.mem_filter, decide_eq_true_eq]
    refine ⟨⟨hp.filter _, Memory.cells_pairwise bs a, ?_⟩, hp.filter _, ?_⟩
    · rintro c ⟨_, h1⟩ d hd; have := hc d hd; omega
    · rintro c (⟨_, h1⟩ | hd) d ⟨_, h2⟩
      · omega
      · have := hc c hd; omega
  · simp only [Memory.write, List.mem_append, List.mem_filter, decide_eq_true_eq]
    rintro c ((⟨h1, _⟩ | h1) | ⟨h1, _⟩)
    · exact hb c h1
    · have := hc c h1; omega
    · exact hb c h1

/-- The arena at OFF has the canonical form. -/
theorem wf_offArena (n : Nat) : Memory.wf (offArena n) = true := by
  rw [Memory.wf_iff]
  unfold offArena
  constructor
  · rw [List.pairwise_map]
    exact List.pairwise_lt_range
  · simp

/-- The memory of the reset state has the canonical form. -/
theorem reset_memory_wf : Memory.wf State.reset.mem = true := wf_offArena 0

/-- What reading a list of cells with given addresses gives. -/
theorem Memory.read_map (f : Nat → Byte) (l : List Nat) (x : Nat) :
    Memory.read (l.map fun a => (a, f a)) x = if x ∈ l then some (f x) else none := by
  induction l with
  | nil => rfl
  | cons a l ih =>
    by_cases h : a = x
    · subst h; simp [Memory.read]
    · simp [Memory.read, h, Ne.symm h, ih]

/-- At OFF every byte of the arena is a free value, and no other address has one. -/
theorem read_offArena (n x : Nat) :
    Memory.read (offArena n) x = if x < 576 then some (Config.offByte n x) else none := by
  unfold offArena
  rw [Memory.read_map]
  simp only [List.mem_range]

theorem slotAddr_bound (h : Slot) (k n : Nat) (hk : k + n ≤ 192) : slotAddr h k + n ≤ 576 := by
  have := h.isLt; unfold slotAddr; omega

/-- Two bytes of different slots have different addresses. -/
theorem slotAddr_ne {h g : Slot} {k l : Nat} (hne : h ≠ g) (hk : k < 192) (hl : l < 192) :
    slotAddr h k ≠ slotAddr g l := by
  have : h.val ≠ g.val := fun e => hne (Fin.ext e)
  unfold slotAddr; omega

/-! ## Blocks -/

theorem Memory.readBlock_some {m : Memory} {a n : Nat} {bs : List Byte} (h : Memory.readBlock m a n = some bs) :
    bs.length = n ∧ ∀ i, i < n → Memory.read m (a + i) = bs[i]? := by
  induction n generalizing a bs with
  | zero => simp [Memory.readBlock] at h; simp [← h]
  | succ n ih =>
    simp only [Memory.readBlock] at h
    split at h
    · rename_i b bs' h1 h2
      obtain rfl : b :: bs' = bs := by simpa using h
      obtain ⟨hl, hr⟩ := ih h2
      refine ⟨by simp [hl], fun i hi => ?_⟩
      cases i with
      | zero => simpa using h1
      | succ i => have := hr i (by omega); simp only [List.getElem?_cons_succ, ← this]; congr 1; omega
    · cases h

theorem Memory.readBlock_eq {m : Memory} {a : Nat} (bs : List Byte)
    (h : ∀ i, i < bs.length → Memory.read m (a + i) = bs[i]?) : Memory.readBlock m a bs.length = some bs := by
  induction bs generalizing a with
  | nil => rfl
  | cons b bs ih =>
    have h0 : Memory.read m a = some b := by simpa using h 0 (by simp)
    have h1 : Memory.readBlock m (a + 1) bs.length = some bs := ih fun i hi => by
      have := h (i + 1) (by simpa using hi)
      simpa [Nat.add_assoc, Nat.add_comm 1 i] using this
    simp [Memory.readBlock, h0, h1]

/-- A block reads as some bytes exactly when each of its bytes has a value. -/
theorem Memory.readBlock_isSome {m : Memory} {a n : Nat} (h : ∀ i, i < n → (Memory.read m (a + i)).isSome = true) :
    ∃ bs, Memory.readBlock m a n = some bs := by
  induction n generalizing a with
  | zero => exact ⟨[], rfl⟩
  | succ n ih =>
    obtain ⟨b, hb⟩ := Option.isSome_iff_exists.1 (by simpa using h 0 (by omega))
    obtain ⟨bs, hbs⟩ := ih (a := a + 1) fun i hi => by
      have := h (i + 1) (by omega); simpa [Nat.add_assoc, Nat.add_comm 1 i] using this
    exact ⟨b :: bs, by simp [Memory.readBlock, hb, hbs]⟩

/-- The bytes just written are the bytes read. -/
theorem Memory.readBlock_write (m : Memory) (a : Nat) (bs : List Byte) :
    Memory.readBlock (Memory.write m a bs) a bs.length = some bs :=
  Memory.readBlock_eq bs fun i hi => by simp [Memory.read_write_inside m a bs i hi, hi]

/-- A block that agrees byte by byte reads the same. -/
theorem Memory.readBlock_congr {m m' : Memory} {a n : Nat}
    (h : ∀ i, i < n → Memory.read m' (a + i) = Memory.read m (a + i)) :
    Memory.readBlock m' a n = Memory.readBlock m a n := by
  induction n generalizing a with
  | zero => rfl
  | succ n ih =>
    have h0 := h 0 (by omega)
    simp only [Nat.add_zero] at h0
    have h1 : Memory.readBlock m' (a + 1) n = Memory.readBlock m (a + 1) n := ih fun i hi => by
      have := h (i + 1) (by omega); simpa [Nat.add_assoc, Nat.add_comm 1 i] using this
    simp only [Memory.readBlock, h0, h1]

end Sys2Proof.Machine
end

