-- ==== Sys2Proof/Laws/State.lean ====
section
/-! SUPPORT. The fields of a state after each named update, one lemma a field, true by rfl. -/

namespace Sys2Proof.Machine

@[simp] theorem raiseViolation_mem (c : Cause) (s : State) : (State.raiseViolation c s).mem = s.mem := rfl
@[simp] theorem raiseViolation_free (c : Cause) (s : State) : (State.raiseViolation c s).free = s.free := rfl
@[simp] theorem raiseViolation_next (c : Cause) (s : State) : (State.raiseViolation c s).next = s.next := rfl
@[simp] theorem raiseViolation_asm (c : Cause) (s : State) : (State.raiseViolation c s).asm = s.asm := rfl
@[simp] theorem raiseViolation_cur (c : Cause) (s : State) : (State.raiseViolation c s).cur = s.cur := rfl
@[simp] theorem raiseViolation_rxState (c : Cause) (s : State) : (State.raiseViolation c s).rxState = s.rxState := rfl
@[simp] theorem raiseViolation_row (c : Cause) (s : State) : (State.raiseViolation c s).row = s.row := rfl
@[simp] theorem raiseViolation_changes (c : Cause) (s : State) : (State.raiseViolation c s).changes = s.changes := rfl
@[simp] theorem raiseViolation_lastSeen (c : Cause) (s : State) : (State.raiseViolation c s).lastSeen = s.lastSeen := rfl
@[simp] theorem raiseViolation_offset (c : Cause) (s : State) : (State.raiseViolation c s).offset = s.offset := rfl
@[simp] theorem raiseViolation_lines (c : Cause) (s : State) : (State.raiseViolation c s).lines = s.lines := rfl
@[simp] theorem raiseViolation_rxFifo (c : Cause) (s : State) : (State.raiseViolation c s).rxFifo = s.rxFifo := rfl
@[simp] theorem raiseViolation_dispDue (c : Cause) (s : State) : (State.raiseViolation c s).dispDue = s.dispDue := rfl
@[simp] theorem raiseViolation_saverDue (c : Cause) (s : State) : (State.raiseViolation c s).saverDue = s.saverDue := rfl
@[simp] theorem raiseViolation_noticePending (c : Cause) (s : State) : (State.raiseViolation c s).noticePending = s.noticePending := rfl
@[simp] theorem raiseViolation_phase (c : Cause) (s : State) : (State.raiseViolation c s).phase = .halted := rfl
@[simp] theorem raiseViolation_fatal (c : Cause) (s : State) : (State.raiseViolation c s).fatal = some c := rfl
@[simp] theorem raiseViolation_trace (c : Cause) (s : State) : (State.raiseViolation c s).trace = s.trace := rfl
@[simp] theorem raiseViolation_acts (c : Cause) (s : State) : (State.raiseViolation c s).acts = [] := rfl
@[simp] theorem raiseViolation_held (c : Cause) (s : State) : (State.raiseViolation c s).held = s.held := rfl
@[simp] theorem raiseViolation_locks (c : Cause) (s : State) : (State.raiseViolation c s).locks = [] := rfl
@[simp] theorem raiseViolation_ret (c : Cause) (s : State) : (State.raiseViolation c s).ret = s.ret := rfl
@[simp] theorem raiseViolation_stim (c : Cause) (s : State) : (State.raiseViolation c s).stim = s.stim := rfl
@[simp] theorem raiseViolation_draws (c : Cause) (s : State) : (State.raiseViolation c s).draws = s.draws := rfl

@[simp] theorem withRet_mem (r : Ret) (s : State) : (State.withRet r s).mem = s.mem := rfl
@[simp] theorem withRet_free (r : Ret) (s : State) : (State.withRet r s).free = s.free := rfl
@[simp] theorem withRet_next (r : Ret) (s : State) : (State.withRet r s).next = s.next := rfl
@[simp] theorem withRet_asm (r : Ret) (s : State) : (State.withRet r s).asm = s.asm := rfl
@[simp] theorem withRet_cur (r : Ret) (s : State) : (State.withRet r s).cur = s.cur := rfl
@[simp] theorem withRet_rxState (r : Ret) (s : State) : (State.withRet r s).rxState = s.rxState := rfl
@[simp] theorem withRet_row (r : Ret) (s : State) : (State.withRet r s).row = s.row := rfl
@[simp] theorem withRet_changes (r : Ret) (s : State) : (State.withRet r s).changes = s.changes := rfl
@[simp] theorem withRet_lastSeen (r : Ret) (s : State) : (State.withRet r s).lastSeen = s.lastSeen := rfl
@[simp] theorem withRet_offset (r : Ret) (s : State) : (State.withRet r s).offset = s.offset := rfl
@[simp] theorem withRet_lines (r : Ret) (s : State) : (State.withRet r s).lines = s.lines := rfl
@[simp] theorem withRet_rxFifo (r : Ret) (s : State) : (State.withRet r s).rxFifo = s.rxFifo := rfl
@[simp] theorem withRet_dispDue (r : Ret) (s : State) : (State.withRet r s).dispDue = s.dispDue := rfl
@[simp] theorem withRet_saverDue (r : Ret) (s : State) : (State.withRet r s).saverDue = s.saverDue := rfl
@[simp] theorem withRet_noticePending (r : Ret) (s : State) : (State.withRet r s).noticePending = s.noticePending := rfl
@[simp] theorem withRet_phase (r : Ret) (s : State) : (State.withRet r s).phase = s.phase := rfl
@[simp] theorem withRet_fatal (r : Ret) (s : State) : (State.withRet r s).fatal = s.fatal := rfl
@[simp] theorem withRet_trace (r : Ret) (s : State) : (State.withRet r s).trace = s.trace := rfl
@[simp] theorem withRet_acts (r : Ret) (s : State) : (State.withRet r s).acts = s.acts := rfl
@[simp] theorem withRet_held (r : Ret) (s : State) : (State.withRet r s).held = s.held := rfl
@[simp] theorem withRet_locks (r : Ret) (s : State) : (State.withRet r s).locks = s.locks := rfl
@[simp] theorem withRet_ret (r : Ret) (s : State) : (State.withRet r s).ret = r := rfl
@[simp] theorem withRet_stim (r : Ret) (s : State) : (State.withRet r s).stim = s.stim := rfl
@[simp] theorem withRet_draws (r : Ret) (s : State) : (State.withRet r s).draws = s.draws := rfl

@[simp] theorem hold_mem (who : Agent) (h : Slot) (s : State) : (State.hold who h s).mem = s.mem := rfl
@[simp] theorem hold_free (who : Agent) (h : Slot) (s : State) : (State.hold who h s).free = s.free := rfl
@[simp] theorem hold_next (who : Agent) (h : Slot) (s : State) : (State.hold who h s).next = s.next := rfl
@[simp] theorem hold_asm (who : Agent) (h : Slot) (s : State) : (State.hold who h s).asm = s.asm := rfl
@[simp] theorem hold_cur (who : Agent) (h : Slot) (s : State) : (State.hold who h s).cur = s.cur := rfl
@[simp] theorem hold_rxState (who : Agent) (h : Slot) (s : State) : (State.hold who h s).rxState = s.rxState := rfl
@[simp] theorem hold_row (who : Agent) (h : Slot) (s : State) : (State.hold who h s).row = s.row := rfl
@[simp] theorem hold_changes (who : Agent) (h : Slot) (s : State) : (State.hold who h s).changes = s.changes := rfl
@[simp] theorem hold_lastSeen (who : Agent) (h : Slot) (s : State) : (State.hold who h s).lastSeen = s.lastSeen := rfl
@[simp] theorem hold_offset (who : Agent) (h : Slot) (s : State) : (State.hold who h s).offset = s.offset := rfl
@[simp] theorem hold_lines (who : Agent) (h : Slot) (s : State) : (State.hold who h s).lines = s.lines := rfl
@[simp] theorem hold_rxFifo (who : Agent) (h : Slot) (s : State) : (State.hold who h s).rxFifo = s.rxFifo := rfl
@[simp] theorem hold_dispDue (who : Agent) (h : Slot) (s : State) : (State.hold who h s).dispDue = s.dispDue := rfl
@[simp] theorem hold_saverDue (who : Agent) (h : Slot) (s : State) : (State.hold who h s).saverDue = s.saverDue := rfl
@[simp] theorem hold_noticePending (who : Agent) (h : Slot) (s : State) : (State.hold who h s).noticePending = s.noticePending := rfl
@[simp] theorem hold_phase (who : Agent) (h : Slot) (s : State) : (State.hold who h s).phase = s.phase := rfl
@[simp] theorem hold_fatal (who : Agent) (h : Slot) (s : State) : (State.hold who h s).fatal = s.fatal := rfl
@[simp] theorem hold_trace (who : Agent) (h : Slot) (s : State) : (State.hold who h s).trace = s.trace := rfl
@[simp] theorem hold_acts (who : Agent) (h : Slot) (s : State) : (State.hold who h s).acts = s.acts := rfl
@[simp] theorem hold_held (who : Agent) (h : Slot) (s : State) : (State.hold who h s).held = (who, h) :: s.held := rfl
@[simp] theorem hold_locks (who : Agent) (h : Slot) (s : State) : (State.hold who h s).locks = s.locks := rfl
@[simp] theorem hold_ret (who : Agent) (h : Slot) (s : State) : (State.hold who h s).ret = s.ret := rfl
@[simp] theorem hold_stim (who : Agent) (h : Slot) (s : State) : (State.hold who h s).stim = s.stim := rfl
@[simp] theorem hold_draws (who : Agent) (h : Slot) (s : State) : (State.hold who h s).draws = s.draws := rfl

@[simp] theorem unhold_mem (who : Agent) (h : Slot) (s : State) : (State.unhold who h s).mem = s.mem := rfl
@[simp] theorem unhold_free (who : Agent) (h : Slot) (s : State) : (State.unhold who h s).free = s.free := rfl
@[simp] theorem unhold_next (who : Agent) (h : Slot) (s : State) : (State.unhold who h s).next = s.next := rfl
@[simp] theorem unhold_asm (who : Agent) (h : Slot) (s : State) : (State.unhold who h s).asm = s.asm := rfl
@[simp] theorem unhold_cur (who : Agent) (h : Slot) (s : State) : (State.unhold who h s).cur = s.cur := rfl
@[simp] theorem unhold_rxState (who : Agent) (h : Slot) (s : State) : (State.unhold who h s).rxState = s.rxState := rfl
@[simp] theorem unhold_row (who : Agent) (h : Slot) (s : State) : (State.unhold who h s).row = s.row := rfl
@[simp] theorem unhold_changes (who : Agent) (h : Slot) (s : State) : (State.unhold who h s).changes = s.changes := rfl
@[simp] theorem unhold_lastSeen (who : Agent) (h : Slot) (s : State) : (State.unhold who h s).lastSeen = s.lastSeen := rfl
@[simp] theorem unhold_offset (who : Agent) (h : Slot) (s : State) : (State.unhold who h s).offset = s.offset := rfl
@[simp] theorem unhold_lines (who : Agent) (h : Slot) (s : State) : (State.unhold who h s).lines = s.lines := rfl
@[simp] theorem unhold_rxFifo (who : Agent) (h : Slot) (s : State) : (State.unhold who h s).rxFifo = s.rxFifo := rfl
@[simp] theorem unhold_dispDue (who : Agent) (h : Slot) (s : State) : (State.unhold who h s).dispDue = s.dispDue := rfl
@[simp] theorem unhold_saverDue (who : Agent) (h : Slot) (s : State) : (State.unhold who h s).saverDue = s.saverDue := rfl
@[simp] theorem unhold_noticePending (who : Agent) (h : Slot) (s : State) : (State.unhold who h s).noticePending = s.noticePending := rfl
@[simp] theorem unhold_phase (who : Agent) (h : Slot) (s : State) : (State.unhold who h s).phase = s.phase := rfl
@[simp] theorem unhold_fatal (who : Agent) (h : Slot) (s : State) : (State.unhold who h s).fatal = s.fatal := rfl
@[simp] theorem unhold_trace (who : Agent) (h : Slot) (s : State) : (State.unhold who h s).trace = s.trace := rfl
@[simp] theorem unhold_acts (who : Agent) (h : Slot) (s : State) : (State.unhold who h s).acts = s.acts := rfl
@[simp] theorem unhold_held (who : Agent) (h : Slot) (s : State) : (State.unhold who h s).held = s.held.erase (who, h) := rfl
@[simp] theorem unhold_locks (who : Agent) (h : Slot) (s : State) : (State.unhold who h s).locks = s.locks := rfl
@[simp] theorem unhold_ret (who : Agent) (h : Slot) (s : State) : (State.unhold who h s).ret = s.ret := rfl
@[simp] theorem unhold_stim (who : Agent) (h : Slot) (s : State) : (State.unhold who h s).stim = s.stim := rfl
@[simp] theorem unhold_draws (who : Agent) (h : Slot) (s : State) : (State.unhold who h s).draws = s.draws := rfl

@[simp] theorem enterLock_mem (who : Agent) (cells : List Shared) (s : State) : (State.enterLock who cells s).mem = s.mem := rfl
@[simp] theorem enterLock_free (who : Agent) (cells : List Shared) (s : State) : (State.enterLock who cells s).free = s.free := rfl
@[simp] theorem enterLock_next (who : Agent) (cells : List Shared) (s : State) : (State.enterLock who cells s).next = s.next := rfl
@[simp] theorem enterLock_asm (who : Agent) (cells : List Shared) (s : State) : (State.enterLock who cells s).asm = s.asm := rfl
@[simp] theorem enterLock_cur (who : Agent) (cells : List Shared) (s : State) : (State.enterLock who cells s).cur = s.cur := rfl
@[simp] theorem enterLock_rxState (who : Agent) (cells : List Shared) (s : State) : (State.enterLock who cells s).rxState = s.rxState := rfl
@[simp] theorem enterLock_row (who : Agent) (cells : List Shared) (s : State) : (State.enterLock who cells s).row = s.row := rfl
@[simp] theorem enterLock_changes (who : Agent) (cells : List Shared) (s : State) : (State.enterLock who cells s).changes = s.changes := rfl
@[simp] theorem enterLock_lastSeen (who : Agent) (cells : List Shared) (s : State) : (State.enterLock who cells s).lastSeen = s.lastSeen := rfl
@[simp] theorem enterLock_offset (who : Agent) (cells : List Shared) (s : State) : (State.enterLock who cells s).offset = s.offset := rfl
@[simp] theorem enterLock_lines (who : Agent) (cells : List Shared) (s : State) : (State.enterLock who cells s).lines = s.lines := rfl
@[simp] theorem enterLock_rxFifo (who : Agent) (cells : List Shared) (s : State) : (State.enterLock who cells s).rxFifo = s.rxFifo := rfl
@[simp] theorem enterLock_dispDue (who : Agent) (cells : List Shared) (s : State) : (State.enterLock who cells s).dispDue = s.dispDue := rfl
@[simp] theorem enterLock_saverDue (who : Agent) (cells : List Shared) (s : State) : (State.enterLock who cells s).saverDue = s.saverDue := rfl
@[simp] theorem enterLock_noticePending (who : Agent) (cells : List Shared) (s : State) : (State.enterLock who cells s).noticePending = s.noticePending := rfl
@[simp] theorem enterLock_phase (who : Agent) (cells : List Shared) (s : State) : (State.enterLock who cells s).phase = s.phase := rfl
@[simp] theorem enterLock_fatal (who : Agent) (cells : List Shared) (s : State) : (State.enterLock who cells s).fatal = s.fatal := rfl
@[simp] theorem enterLock_trace (who : Agent) (cells : List Shared) (s : State) : (State.enterLock who cells s).trace = s.trace := rfl
@[simp] theorem enterLock_acts (who : Agent) (cells : List Shared) (s : State) : (State.enterLock who cells s).acts = s.acts := rfl
@[simp] theorem enterLock_held (who : Agent) (cells : List Shared) (s : State) : (State.enterLock who cells s).held = s.held := rfl
@[simp] theorem enterLock_locks (who : Agent) (cells : List Shared) (s : State) : (State.enterLock who cells s).locks = (who, cells) :: s.locks := rfl
@[simp] theorem enterLock_ret (who : Agent) (cells : List Shared) (s : State) : (State.enterLock who cells s).ret = s.ret := rfl
@[simp] theorem enterLock_stim (who : Agent) (cells : List Shared) (s : State) : (State.enterLock who cells s).stim = s.stim := rfl
@[simp] theorem enterLock_draws (who : Agent) (cells : List Shared) (s : State) : (State.enterLock who cells s).draws = s.draws := rfl

@[simp] theorem leaveLock_mem (s : State) : (State.leaveLock s).mem = s.mem := rfl
@[simp] theorem leaveLock_free (s : State) : (State.leaveLock s).free = s.free := rfl
@[simp] theorem leaveLock_next (s : State) : (State.leaveLock s).next = s.next := rfl
@[simp] theorem leaveLock_asm (s : State) : (State.leaveLock s).asm = s.asm := rfl
@[simp] theorem leaveLock_cur (s : State) : (State.leaveLock s).cur = s.cur := rfl
@[simp] theorem leaveLock_rxState (s : State) : (State.leaveLock s).rxState = s.rxState := rfl
@[simp] theorem leaveLock_row (s : State) : (State.leaveLock s).row = s.row := rfl
@[simp] theorem leaveLock_changes (s : State) : (State.leaveLock s).changes = s.changes := rfl
@[simp] theorem leaveLock_lastSeen (s : State) : (State.leaveLock s).lastSeen = s.lastSeen := rfl
@[simp] theorem leaveLock_offset (s : State) : (State.leaveLock s).offset = s.offset := rfl
@[simp] theorem leaveLock_lines (s : State) : (State.leaveLock s).lines = s.lines := rfl
@[simp] theorem leaveLock_rxFifo (s : State) : (State.leaveLock s).rxFifo = s.rxFifo := rfl
@[simp] theorem leaveLock_dispDue (s : State) : (State.leaveLock s).dispDue = s.dispDue := rfl
@[simp] theorem leaveLock_saverDue (s : State) : (State.leaveLock s).saverDue = s.saverDue := rfl
@[simp] theorem leaveLock_noticePending (s : State) : (State.leaveLock s).noticePending = s.noticePending := rfl
@[simp] theorem leaveLock_phase (s : State) : (State.leaveLock s).phase = s.phase := rfl
@[simp] theorem leaveLock_fatal (s : State) : (State.leaveLock s).fatal = s.fatal := rfl
@[simp] theorem leaveLock_trace (s : State) : (State.leaveLock s).trace = s.trace := rfl
@[simp] theorem leaveLock_acts (s : State) : (State.leaveLock s).acts = s.acts := rfl
@[simp] theorem leaveLock_held (s : State) : (State.leaveLock s).held = s.held := rfl
@[simp] theorem leaveLock_locks (s : State) : (State.leaveLock s).locks = s.locks.tail := rfl
@[simp] theorem leaveLock_ret (s : State) : (State.leaveLock s).ret = s.ret := rfl
@[simp] theorem leaveLock_stim (s : State) : (State.leaveLock s).stim = s.stim := rfl
@[simp] theorem leaveLock_draws (s : State) : (State.leaveLock s).draws = s.draws := rfl

@[simp] theorem emit_mem (evs : List LineEvent) (s : State) : (State.emit evs s).mem = s.mem := rfl
@[simp] theorem emit_free (evs : List LineEvent) (s : State) : (State.emit evs s).free = s.free := rfl
@[simp] theorem emit_next (evs : List LineEvent) (s : State) : (State.emit evs s).next = s.next := rfl
@[simp] theorem emit_asm (evs : List LineEvent) (s : State) : (State.emit evs s).asm = s.asm := rfl
@[simp] theorem emit_cur (evs : List LineEvent) (s : State) : (State.emit evs s).cur = s.cur := rfl
@[simp] theorem emit_rxState (evs : List LineEvent) (s : State) : (State.emit evs s).rxState = s.rxState := rfl
@[simp] theorem emit_row (evs : List LineEvent) (s : State) : (State.emit evs s).row = s.row := rfl
@[simp] theorem emit_changes (evs : List LineEvent) (s : State) : (State.emit evs s).changes = s.changes := rfl
@[simp] theorem emit_lastSeen (evs : List LineEvent) (s : State) : (State.emit evs s).lastSeen = s.lastSeen := rfl
@[simp] theorem emit_offset (evs : List LineEvent) (s : State) : (State.emit evs s).offset = s.offset := rfl
@[simp] theorem emit_lines (evs : List LineEvent) (s : State) : (State.emit evs s).lines = Lines.afterAll s.lines evs := rfl
@[simp] theorem emit_rxFifo (evs : List LineEvent) (s : State) : (State.emit evs s).rxFifo = s.rxFifo := rfl
@[simp] theorem emit_dispDue (evs : List LineEvent) (s : State) : (State.emit evs s).dispDue = s.dispDue := rfl
@[simp] theorem emit_saverDue (evs : List LineEvent) (s : State) : (State.emit evs s).saverDue = s.saverDue := rfl
@[simp] theorem emit_noticePending (evs : List LineEvent) (s : State) : (State.emit evs s).noticePending = s.noticePending := rfl
@[simp] theorem emit_phase (evs : List LineEvent) (s : State) : (State.emit evs s).phase = s.phase := rfl
@[simp] theorem emit_fatal (evs : List LineEvent) (s : State) : (State.emit evs s).fatal = s.fatal := rfl
@[simp] theorem emit_trace (evs : List LineEvent) (s : State) : (State.emit evs s).trace = s.trace ++ evs := rfl
@[simp] theorem emit_acts (evs : List LineEvent) (s : State) : (State.emit evs s).acts = s.acts := rfl
@[simp] theorem emit_held (evs : List LineEvent) (s : State) : (State.emit evs s).held = s.held := rfl
@[simp] theorem emit_locks (evs : List LineEvent) (s : State) : (State.emit evs s).locks = s.locks := rfl
@[simp] theorem emit_ret (evs : List LineEvent) (s : State) : (State.emit evs s).ret = s.ret := rfl
@[simp] theorem emit_stim (evs : List LineEvent) (s : State) : (State.emit evs s).stim = s.stim := rfl
@[simp] theorem emit_draws (evs : List LineEvent) (s : State) : (State.emit evs s).draws = s.draws := rfl

@[simp] theorem push_mem (a : Agent) (todo : List Micro) (s : State) : (State.push a todo s).mem = s.mem := rfl
@[simp] theorem push_free (a : Agent) (todo : List Micro) (s : State) : (State.push a todo s).free = s.free := rfl
@[simp] theorem push_next (a : Agent) (todo : List Micro) (s : State) : (State.push a todo s).next = s.next := rfl
@[simp] theorem push_asm (a : Agent) (todo : List Micro) (s : State) : (State.push a todo s).asm = s.asm := rfl
@[simp] theorem push_cur (a : Agent) (todo : List Micro) (s : State) : (State.push a todo s).cur = s.cur := rfl
@[simp] theorem push_rxState (a : Agent) (todo : List Micro) (s : State) : (State.push a todo s).rxState = s.rxState := rfl
@[simp] theorem push_row (a : Agent) (todo : List Micro) (s : State) : (State.push a todo s).row = s.row := rfl
@[simp] theorem push_changes (a : Agent) (todo : List Micro) (s : State) : (State.push a todo s).changes = s.changes := rfl
@[simp] theorem push_lastSeen (a : Agent) (todo : List Micro) (s : State) : (State.push a todo s).lastSeen = s.lastSeen := rfl
@[simp] theorem push_offset (a : Agent) (todo : List Micro) (s : State) : (State.push a todo s).offset = s.offset := rfl
@[simp] theorem push_lines (a : Agent) (todo : List Micro) (s : State) : (State.push a todo s).lines = s.lines := rfl
@[simp] theorem push_rxFifo (a : Agent) (todo : List Micro) (s : State) : (State.push a todo s).rxFifo = s.rxFifo := rfl
@[simp] theorem push_dispDue (a : Agent) (todo : List Micro) (s : State) : (State.push a todo s).dispDue = s.dispDue := rfl
@[simp] theorem push_saverDue (a : Agent) (todo : List Micro) (s : State) : (State.push a todo s).saverDue = s.saverDue := rfl
@[simp] theorem push_noticePending (a : Agent) (todo : List Micro) (s : State) : (State.push a todo s).noticePending = s.noticePending := rfl
@[simp] theorem push_phase (a : Agent) (todo : List Micro) (s : State) : (State.push a todo s).phase = s.phase := rfl
@[simp] theorem push_fatal (a : Agent) (todo : List Micro) (s : State) : (State.push a todo s).fatal = s.fatal := rfl
@[simp] theorem push_trace (a : Agent) (todo : List Micro) (s : State) : (State.push a todo s).trace = s.trace := rfl
@[simp] theorem push_acts (a : Agent) (todo : List Micro) (s : State) : (State.push a todo s).acts = ⟨a, Vector.replicate 8 Color.black, todo⟩ :: s.acts := rfl
@[simp] theorem push_held (a : Agent) (todo : List Micro) (s : State) : (State.push a todo s).held = s.held := rfl
@[simp] theorem push_locks (a : Agent) (todo : List Micro) (s : State) : (State.push a todo s).locks = s.locks := rfl
@[simp] theorem push_ret (a : Agent) (todo : List Micro) (s : State) : (State.push a todo s).ret = s.ret := rfl
@[simp] theorem push_stim (a : Agent) (todo : List Micro) (s : State) : (State.push a todo s).stim = s.stim := rfl
@[simp] theorem push_draws (a : Agent) (todo : List Micro) (s : State) : (State.push a todo s).draws = s.draws := rfl

@[simp] theorem pop_mem (s : State) : (State.pop s).mem = s.mem := rfl
@[simp] theorem pop_free (s : State) : (State.pop s).free = s.free := rfl
@[simp] theorem pop_next (s : State) : (State.pop s).next = s.next := rfl
@[simp] theorem pop_asm (s : State) : (State.pop s).asm = s.asm := rfl
@[simp] theorem pop_cur (s : State) : (State.pop s).cur = s.cur := rfl
@[simp] theorem pop_rxState (s : State) : (State.pop s).rxState = s.rxState := rfl
@[simp] theorem pop_row (s : State) : (State.pop s).row = s.row := rfl
@[simp] theorem pop_changes (s : State) : (State.pop s).changes = s.changes := rfl
@[simp] theorem pop_lastSeen (s : State) : (State.pop s).lastSeen = s.lastSeen := rfl
@[simp] theorem pop_offset (s : State) : (State.pop s).offset = s.offset := rfl
@[simp] theorem pop_lines (s : State) : (State.pop s).lines = s.lines := rfl
@[simp] theorem pop_rxFifo (s : State) : (State.pop s).rxFifo = s.rxFifo := rfl
@[simp] theorem pop_dispDue (s : State) : (State.pop s).dispDue = s.dispDue := rfl
@[simp] theorem pop_saverDue (s : State) : (State.pop s).saverDue = s.saverDue := rfl
@[simp] theorem pop_noticePending (s : State) : (State.pop s).noticePending = s.noticePending := rfl
@[simp] theorem pop_phase (s : State) : (State.pop s).phase = s.phase := rfl
@[simp] theorem pop_fatal (s : State) : (State.pop s).fatal = s.fatal := rfl
@[simp] theorem pop_trace (s : State) : (State.pop s).trace = s.trace := rfl
@[simp] theorem pop_acts (s : State) : (State.pop s).acts = s.acts.tail := rfl
@[simp] theorem pop_held (s : State) : (State.pop s).held = s.held := rfl
@[simp] theorem pop_locks (s : State) : (State.pop s).locks = s.locks := rfl
@[simp] theorem pop_ret (s : State) : (State.pop s).ret = s.ret := rfl
@[simp] theorem pop_stim (s : State) : (State.pop s).stim = s.stim := rfl
@[simp] theorem pop_draws (s : State) : (State.pop s).draws = s.draws := rfl

@[simp] theorem syncByte_mem (s : State) : (syncByte s).mem = s.mem := rfl
@[simp] theorem syncByte_free (s : State) : (syncByte s).free = s.free := rfl
@[simp] theorem syncByte_next (s : State) : (syncByte s).next = s.next := rfl
@[simp] theorem syncByte_asm (s : State) : (syncByte s).asm = s.asm := rfl
@[simp] theorem syncByte_cur (s : State) : (syncByte s).cur = s.cur := rfl
@[simp] theorem syncByte_rxState (s : State) : (syncByte s).rxState = .filling 0 := rfl
@[simp] theorem syncByte_row (s : State) : (syncByte s).row = s.row := rfl
@[simp] theorem syncByte_changes (s : State) : (syncByte s).changes = s.changes := rfl
@[simp] theorem syncByte_lastSeen (s : State) : (syncByte s).lastSeen = s.lastSeen := rfl
@[simp] theorem syncByte_offset (s : State) : (syncByte s).offset = s.offset := rfl
@[simp] theorem syncByte_lines (s : State) : (syncByte s).lines = s.lines := rfl
@[simp] theorem syncByte_rxFifo (s : State) : (syncByte s).rxFifo = s.rxFifo := rfl
@[simp] theorem syncByte_dispDue (s : State) : (syncByte s).dispDue = s.dispDue := rfl
@[simp] theorem syncByte_saverDue (s : State) : (syncByte s).saverDue = s.saverDue := rfl
@[simp] theorem syncByte_noticePending (s : State) : (syncByte s).noticePending = s.noticePending := rfl
@[simp] theorem syncByte_phase (s : State) : (syncByte s).phase = s.phase := rfl
@[simp] theorem syncByte_fatal (s : State) : (syncByte s).fatal = s.fatal := rfl
@[simp] theorem syncByte_trace (s : State) : (syncByte s).trace = s.trace := rfl
@[simp] theorem syncByte_acts (s : State) : (syncByte s).acts = s.acts := rfl
@[simp] theorem syncByte_held (s : State) : (syncByte s).held = s.held := rfl
@[simp] theorem syncByte_locks (s : State) : (syncByte s).locks = s.locks := rfl
@[simp] theorem syncByte_ret (s : State) : (syncByte s).ret = s.ret := rfl
@[simp] theorem syncByte_stim (s : State) : (syncByte s).stim = s.stim := rfl
@[simp] theorem syncByte_draws (s : State) : (syncByte s).draws = s.draws := rfl

@[simp] theorem adoptAsm_mem (h : Slot) (s : State) : (adoptAsm h s).mem = s.mem := rfl
@[simp] theorem adoptAsm_free (h : Slot) (s : State) : (adoptAsm h s).free = s.free := rfl
@[simp] theorem adoptAsm_next (h : Slot) (s : State) : (adoptAsm h s).next = s.next := rfl
@[simp] theorem adoptAsm_asm (h : Slot) (s : State) : (adoptAsm h s).asm = some h := rfl
@[simp] theorem adoptAsm_cur (h : Slot) (s : State) : (adoptAsm h s).cur = s.cur := rfl
@[simp] theorem adoptAsm_rxState (h : Slot) (s : State) : (adoptAsm h s).rxState = s.rxState := rfl
@[simp] theorem adoptAsm_row (h : Slot) (s : State) : (adoptAsm h s).row = s.row := rfl
@[simp] theorem adoptAsm_changes (h : Slot) (s : State) : (adoptAsm h s).changes = s.changes := rfl
@[simp] theorem adoptAsm_lastSeen (h : Slot) (s : State) : (adoptAsm h s).lastSeen = s.lastSeen := rfl
@[simp] theorem adoptAsm_offset (h : Slot) (s : State) : (adoptAsm h s).offset = s.offset := rfl
@[simp] theorem adoptAsm_lines (h : Slot) (s : State) : (adoptAsm h s).lines = s.lines := rfl
@[simp] theorem adoptAsm_rxFifo (h : Slot) (s : State) : (adoptAsm h s).rxFifo = s.rxFifo := rfl
@[simp] theorem adoptAsm_dispDue (h : Slot) (s : State) : (adoptAsm h s).dispDue = s.dispDue := rfl
@[simp] theorem adoptAsm_saverDue (h : Slot) (s : State) : (adoptAsm h s).saverDue = s.saverDue := rfl
@[simp] theorem adoptAsm_noticePending (h : Slot) (s : State) : (adoptAsm h s).noticePending = s.noticePending := rfl
@[simp] theorem adoptAsm_phase (h : Slot) (s : State) : (adoptAsm h s).phase = s.phase := rfl
@[simp] theorem adoptAsm_fatal (h : Slot) (s : State) : (adoptAsm h s).fatal = s.fatal := rfl
@[simp] theorem adoptAsm_trace (h : Slot) (s : State) : (adoptAsm h s).trace = s.trace := rfl
@[simp] theorem adoptAsm_acts (h : Slot) (s : State) : (adoptAsm h s).acts = s.acts := rfl
@[simp] theorem adoptAsm_held (h : Slot) (s : State) : (adoptAsm h s).held = s.held.erase (.rx, h) := rfl
@[simp] theorem adoptAsm_locks (h : Slot) (s : State) : (adoptAsm h s).locks = s.locks := rfl
@[simp] theorem adoptAsm_ret (h : Slot) (s : State) : (adoptAsm h s).ret = s.ret := rfl
@[simp] theorem adoptAsm_stim (h : Slot) (s : State) : (adoptAsm h s).stim = s.stim := rfl
@[simp] theorem adoptAsm_draws (h : Slot) (s : State) : (adoptAsm h s).draws = s.draws := rfl

@[simp] theorem bumpCounter_mem (s : State) : (bumpCounter s).mem = s.mem := rfl
@[simp] theorem bumpCounter_free (s : State) : (bumpCounter s).free = s.free := rfl
@[simp] theorem bumpCounter_next (s : State) : (bumpCounter s).next = s.next := rfl
@[simp] theorem bumpCounter_asm (s : State) : (bumpCounter s).asm = s.asm := rfl
@[simp] theorem bumpCounter_cur (s : State) : (bumpCounter s).cur = s.cur := rfl
@[simp] theorem bumpCounter_rxState (s : State) : (bumpCounter s).rxState = s.rxState := rfl
@[simp] theorem bumpCounter_row (s : State) : (bumpCounter s).row = s.row := rfl
@[simp] theorem bumpCounter_changes (s : State) : (bumpCounter s).changes = s.changes + 1 := rfl
@[simp] theorem bumpCounter_lastSeen (s : State) : (bumpCounter s).lastSeen = s.lastSeen := rfl
@[simp] theorem bumpCounter_offset (s : State) : (bumpCounter s).offset = s.offset := rfl
@[simp] theorem bumpCounter_lines (s : State) : (bumpCounter s).lines = s.lines := rfl
@[simp] theorem bumpCounter_rxFifo (s : State) : (bumpCounter s).rxFifo = s.rxFifo := rfl
@[simp] theorem bumpCounter_dispDue (s : State) : (bumpCounter s).dispDue = s.dispDue := rfl
@[simp] theorem bumpCounter_saverDue (s : State) : (bumpCounter s).saverDue = s.saverDue := rfl
@[simp] theorem bumpCounter_noticePending (s : State) : (bumpCounter s).noticePending = s.noticePending := rfl
@[simp] theorem bumpCounter_phase (s : State) : (bumpCounter s).phase = s.phase := rfl
@[simp] theorem bumpCounter_fatal (s : State) : (bumpCounter s).fatal = s.fatal := rfl
@[simp] theorem bumpCounter_trace (s : State) : (bumpCounter s).trace = s.trace := rfl
@[simp] theorem bumpCounter_acts (s : State) : (bumpCounter s).acts = s.acts := rfl
@[simp] theorem bumpCounter_held (s : State) : (bumpCounter s).held = s.held := rfl
@[simp] theorem bumpCounter_locks (s : State) : (bumpCounter s).locks = s.locks := rfl
@[simp] theorem bumpCounter_ret (s : State) : (bumpCounter s).ret = s.ret := rfl
@[simp] theorem bumpCounter_stim (s : State) : (bumpCounter s).stim = s.stim := rfl
@[simp] theorem bumpCounter_draws (s : State) : (bumpCounter s).draws = s.draws := rfl

@[simp] theorem advanceRow_mem (s : State) : (advanceRow s).mem = s.mem := rfl
@[simp] theorem advanceRow_free (s : State) : (advanceRow s).free = s.free := rfl
@[simp] theorem advanceRow_next (s : State) : (advanceRow s).next = s.next := rfl
@[simp] theorem advanceRow_asm (s : State) : (advanceRow s).asm = s.asm := rfl
@[simp] theorem advanceRow_cur (s : State) : (advanceRow s).cur = s.cur := rfl
@[simp] theorem advanceRow_rxState (s : State) : (advanceRow s).rxState = s.rxState := rfl
@[simp] theorem advanceRow_row (s : State) : (advanceRow s).row = s.row + 1 := rfl
@[simp] theorem advanceRow_changes (s : State) : (advanceRow s).changes = s.changes := rfl
@[simp] theorem advanceRow_lastSeen (s : State) : (advanceRow s).lastSeen = s.lastSeen := rfl
@[simp] theorem advanceRow_offset (s : State) : (advanceRow s).offset = s.offset := rfl
@[simp] theorem advanceRow_lines (s : State) : (advanceRow s).lines = s.lines := rfl
@[simp] theorem advanceRow_rxFifo (s : State) : (advanceRow s).rxFifo = s.rxFifo := rfl
@[simp] theorem advanceRow_dispDue (s : State) : (advanceRow s).dispDue = s.dispDue := rfl
@[simp] theorem advanceRow_saverDue (s : State) : (advanceRow s).saverDue = s.saverDue := rfl
@[simp] theorem advanceRow_noticePending (s : State) : (advanceRow s).noticePending = s.noticePending := rfl
@[simp] theorem advanceRow_phase (s : State) : (advanceRow s).phase = s.phase := rfl
@[simp] theorem advanceRow_fatal (s : State) : (advanceRow s).fatal = s.fatal := rfl
@[simp] theorem advanceRow_trace (s : State) : (advanceRow s).trace = s.trace := rfl
@[simp] theorem advanceRow_acts (s : State) : (advanceRow s).acts = s.acts := rfl
@[simp] theorem advanceRow_held (s : State) : (advanceRow s).held = s.held := rfl
@[simp] theorem advanceRow_locks (s : State) : (advanceRow s).locks = s.locks := rfl
@[simp] theorem advanceRow_ret (s : State) : (advanceRow s).ret = s.ret := rfl
@[simp] theorem advanceRow_stim (s : State) : (advanceRow s).stim = s.stim := rfl
@[simp] theorem advanceRow_draws (s : State) : (advanceRow s).draws = s.draws := rfl

@[simp] theorem saverActive_mem (s : State) : (saverActive s).mem = s.mem := rfl
@[simp] theorem saverActive_free (s : State) : (saverActive s).free = s.free := rfl
@[simp] theorem saverActive_next (s : State) : (saverActive s).next = s.next := rfl
@[simp] theorem saverActive_asm (s : State) : (saverActive s).asm = s.asm := rfl
@[simp] theorem saverActive_cur (s : State) : (saverActive s).cur = s.cur := rfl
@[simp] theorem saverActive_rxState (s : State) : (saverActive s).rxState = s.rxState := rfl
@[simp] theorem saverActive_row (s : State) : (saverActive s).row = s.row := rfl
@[simp] theorem saverActive_changes (s : State) : (saverActive s).changes = s.changes := rfl
@[simp] theorem saverActive_lastSeen (s : State) : (saverActive s).lastSeen = s.changes := rfl
@[simp] theorem saverActive_offset (s : State) : (saverActive s).offset = Config.offsetInit := rfl
@[simp] theorem saverActive_lines (s : State) : (saverActive s).lines = s.lines := rfl
@[simp] theorem saverActive_rxFifo (s : State) : (saverActive s).rxFifo = s.rxFifo := rfl
@[simp] theorem saverActive_dispDue (s : State) : (saverActive s).dispDue = s.dispDue := rfl
@[simp] theorem saverActive_saverDue (s : State) : (saverActive s).saverDue = s.saverDue := rfl
@[simp] theorem saverActive_noticePending (s : State) : (saverActive s).noticePending = s.noticePending := rfl
@[simp] theorem saverActive_phase (s : State) : (saverActive s).phase = s.phase := rfl
@[simp] theorem saverActive_fatal (s : State) : (saverActive s).fatal = s.fatal := rfl
@[simp] theorem saverActive_trace (s : State) : (saverActive s).trace = s.trace := rfl
@[simp] theorem saverActive_acts (s : State) : (saverActive s).acts = s.acts := rfl
@[simp] theorem saverActive_held (s : State) : (saverActive s).held = s.held := rfl
@[simp] theorem saverActive_locks (s : State) : (saverActive s).locks = s.locks := rfl
@[simp] theorem saverActive_ret (s : State) : (saverActive s).ret = s.ret := rfl
@[simp] theorem saverActive_stim (s : State) : (saverActive s).stim = s.stim := rfl
@[simp] theorem saverActive_draws (s : State) : (saverActive s).draws = s.draws := rfl

/-! `release` and `setG` choose by a case split; what neither choice touches. -/

@[simp] theorem release_mem (who : Agent) (h : Slot) (s : State) : (State.release who h s).mem = s.mem := by
  unfold State.release; split_ifs <;> rfl
@[simp] theorem release_free (who : Agent) (h : Slot) (s : State) : (State.release who h s).free = s.free := by
  unfold State.release; split_ifs <;> rfl
@[simp] theorem release_next (who : Agent) (h : Slot) (s : State) : (State.release who h s).next = s.next := by
  unfold State.release; split_ifs <;> rfl
@[simp] theorem release_rxState (who : Agent) (h : Slot) (s : State) : (State.release who h s).rxState = s.rxState := by
  unfold State.release; split_ifs <;> rfl
@[simp] theorem release_row (who : Agent) (h : Slot) (s : State) : (State.release who h s).row = s.row := by
  unfold State.release; split_ifs <;> rfl
@[simp] theorem release_changes (who : Agent) (h : Slot) (s : State) : (State.release who h s).changes = s.changes := by
  unfold State.release; split_ifs <;> rfl
@[simp] theorem release_lastSeen (who : Agent) (h : Slot) (s : State) : (State.release who h s).lastSeen = s.lastSeen := by
  unfold State.release; split_ifs <;> rfl
@[simp] theorem release_offset (who : Agent) (h : Slot) (s : State) : (State.release who h s).offset = s.offset := by
  unfold State.release; split_ifs <;> rfl
@[simp] theorem release_lines (who : Agent) (h : Slot) (s : State) : (State.release who h s).lines = s.lines := by
  unfold State.release; split_ifs <;> rfl
@[simp] theorem release_rxFifo (who : Agent) (h : Slot) (s : State) : (State.release who h s).rxFifo = s.rxFifo := by
  unfold State.release; split_ifs <;> rfl
@[simp] theorem release_dispDue (who : Agent) (h : Slot) (s : State) : (State.release who h s).dispDue = s.dispDue := by
  unfold State.release; split_ifs <;> rfl
@[simp] theorem release_saverDue (who : Agent) (h : Slot) (s : State) : (State.release who h s).saverDue = s.saverDue := by
  unfold State.release; split_ifs <;> rfl
@[simp] theorem release_noticePending (who : Agent) (h : Slot) (s : State) : (State.release who h s).noticePending = s.noticePending := by
  unfold State.release; split_ifs <;> rfl
@[simp] theorem release_phase (who : Agent) (h : Slot) (s : State) : (State.release who h s).phase = s.phase := by
  unfold State.release; split_ifs <;> rfl
@[simp] theorem release_fatal (who : Agent) (h : Slot) (s : State) : (State.release who h s).fatal = s.fatal := by
  unfold State.release; split_ifs <;> rfl
@[simp] theorem release_trace (who : Agent) (h : Slot) (s : State) : (State.release who h s).trace = s.trace := by
  unfold State.release; split_ifs <;> rfl
@[simp] theorem release_acts (who : Agent) (h : Slot) (s : State) : (State.release who h s).acts = s.acts := by
  unfold State.release; split_ifs <;> rfl
@[simp] theorem release_locks (who : Agent) (h : Slot) (s : State) : (State.release who h s).locks = s.locks := by
  unfold State.release; split_ifs <;> rfl
@[simp] theorem release_ret (who : Agent) (h : Slot) (s : State) : (State.release who h s).ret = s.ret := by
  unfold State.release; split_ifs <;> rfl
@[simp] theorem release_stim (who : Agent) (h : Slot) (s : State) : (State.release who h s).stim = s.stim := by
  unfold State.release; split_ifs <;> rfl
@[simp] theorem release_draws (who : Agent) (h : Slot) (s : State) : (State.release who h s).draws = s.draws := by
  unfold State.release; split_ifs <;> rfl
@[simp] theorem setG_mem (g : RowPixels) (s : State) : (State.setG g s).mem = s.mem := by
  unfold State.setG; split <;> rfl
@[simp] theorem setG_free (g : RowPixels) (s : State) : (State.setG g s).free = s.free := by
  unfold State.setG; split <;> rfl
@[simp] theorem setG_next (g : RowPixels) (s : State) : (State.setG g s).next = s.next := by
  unfold State.setG; split <;> rfl
@[simp] theorem setG_asm (g : RowPixels) (s : State) : (State.setG g s).asm = s.asm := by
  unfold State.setG; split <;> rfl
@[simp] theorem setG_cur (g : RowPixels) (s : State) : (State.setG g s).cur = s.cur := by
  unfold State.setG; split <;> rfl
@[simp] theorem setG_rxState (g : RowPixels) (s : State) : (State.setG g s).rxState = s.rxState := by
  unfold State.setG; split <;> rfl
@[simp] theorem setG_row (g : RowPixels) (s : State) : (State.setG g s).row = s.row := by
  unfold State.setG; split <;> rfl
@[simp] theorem setG_changes (g : RowPixels) (s : State) : (State.setG g s).changes = s.changes := by
  unfold State.setG; split <;> rfl
@[simp] theorem setG_lastSeen (g : RowPixels) (s : State) : (State.setG g s).lastSeen = s.lastSeen := by
  unfold State.setG; split <;> rfl
@[simp] theorem setG_offset (g : RowPixels) (s : State) : (State.setG g s).offset = s.offset := by
  unfold State.setG; split <;> rfl
@[simp] theorem setG_lines (g : RowPixels) (s : State) : (State.setG g s).lines = s.lines := by
  unfold State.setG; split <;> rfl
@[simp] theorem setG_rxFifo (g : RowPixels) (s : State) : (State.setG g s).rxFifo = s.rxFifo := by
  unfold State.setG; split <;> rfl
@[simp] theorem setG_dispDue (g : RowPixels) (s : State) : (State.setG g s).dispDue = s.dispDue := by
  unfold State.setG; split <;> rfl
@[simp] theorem setG_saverDue (g : RowPixels) (s : State) : (State.setG g s).saverDue = s.saverDue := by
  unfold State.setG; split <;> rfl
@[simp] theorem setG_noticePending (g : RowPixels) (s : State) : (State.setG g s).noticePending = s.noticePending := by
  unfold State.setG; split <;> rfl
@[simp] theorem setG_phase (g : RowPixels) (s : State) : (State.setG g s).phase = s.phase := by
  unfold State.setG; split <;> rfl
@[simp] theorem setG_fatal (g : RowPixels) (s : State) : (State.setG g s).fatal = s.fatal := by
  unfold State.setG; split <;> rfl
@[simp] theorem setG_trace (g : RowPixels) (s : State) : (State.setG g s).trace = s.trace := by
  unfold State.setG; split <;> rfl
@[simp] theorem setG_held (g : RowPixels) (s : State) : (State.setG g s).held = s.held := by
  unfold State.setG; split <;> rfl
@[simp] theorem setG_locks (g : RowPixels) (s : State) : (State.setG g s).locks = s.locks := by
  unfold State.setG; split <;> rfl
@[simp] theorem setG_ret (g : RowPixels) (s : State) : (State.setG g s).ret = s.ret := by
  unfold State.setG; split <;> rfl
@[simp] theorem setG_stim (g : RowPixels) (s : State) : (State.setG g s).stim = s.stim := by
  unfold State.setG; split <;> rfl
@[simp] theorem setG_draws (g : RowPixels) (s : State) : (State.setG g s).draws = s.draws := by
  unfold State.setG; split <;> rfl
@[simp] theorem toReset_mem (s : State) : s.toReset.mem = offArena (s.draws + 1) := rfl
@[simp] theorem toReset_free (s : State) : s.toReset.free = State.reset.free := rfl
@[simp] theorem toReset_next (s : State) : s.toReset.next = State.reset.next := rfl
@[simp] theorem toReset_asm (s : State) : s.toReset.asm = State.reset.asm := rfl
@[simp] theorem toReset_cur (s : State) : s.toReset.cur = State.reset.cur := rfl
@[simp] theorem toReset_rxState (s : State) : s.toReset.rxState = State.reset.rxState := rfl
@[simp] theorem toReset_row (s : State) : s.toReset.row = State.reset.row := rfl
@[simp] theorem toReset_changes (s : State) : s.toReset.changes = State.reset.changes := rfl
@[simp] theorem toReset_lastSeen (s : State) : s.toReset.lastSeen = State.reset.lastSeen := rfl
@[simp] theorem toReset_offset (s : State) : s.toReset.offset = State.reset.offset := rfl
@[simp] theorem toReset_lines (s : State) : s.toReset.lines = State.reset.lines := rfl
@[simp] theorem toReset_rxFifo (s : State) : s.toReset.rxFifo = State.reset.rxFifo := rfl
@[simp] theorem toReset_dispDue (s : State) : s.toReset.dispDue = State.reset.dispDue := rfl
@[simp] theorem toReset_saverDue (s : State) : s.toReset.saverDue = State.reset.saverDue := rfl
@[simp] theorem toReset_noticePending (s : State) : s.toReset.noticePending = State.reset.noticePending := rfl
@[simp] theorem toReset_phase (s : State) : s.toReset.phase = State.reset.phase := rfl
@[simp] theorem toReset_fatal (s : State) : s.toReset.fatal = State.reset.fatal := rfl
@[simp] theorem toReset_trace (s : State) : s.toReset.trace = State.reset.trace := rfl
@[simp] theorem toReset_acts (s : State) : s.toReset.acts = State.reset.acts := rfl
@[simp] theorem toReset_held (s : State) : s.toReset.held = State.reset.held := rfl
@[simp] theorem toReset_locks (s : State) : s.toReset.locks = State.reset.locks := rfl
@[simp] theorem toReset_ret (s : State) : s.toReset.ret = State.reset.ret := rfl
@[simp] theorem toReset_stim (s : State) : s.toReset.stim = s.stim := rfl
@[simp] theorem toReset_draws (s : State) : s.toReset.draws = s.draws + 1 := rfl

end Sys2Proof.Machine
end

