-- ==== Sys2Proof/Laws/Ops.lean ====
section
/-! SUPPORT. What each shared operation can do, said once. -/

namespace Sys2Proof.Machine

/-! ## Results -/

@[simp] theorem Res.bind_ok {α β : Type} (a : α) (s : State) (k : α → State → Res β) : (Res.ok a s).bind k = k a s := rfl
@[simp] theorem Res.bind_raised {α β : Type} (s : State) (k : α → State → Res β) : (Res.raised s).bind k = .raised s := rfl
@[simp] theorem Res.bind_fault {α β : Type} (f : Fault) (k : α → State → Res β) : (Res.fault f).bind k = .fault f := rfl
@[simp] theorem Res.bind_refused {α β : Type} (r : Refusal) (k : α → State → Res β) :
    (Res.refused r).bind k = .refused r := rfl

@[simp] theorem Res.outcome_ok {α : Type} (a : α) (s : State) : (Res.ok a s).outcome = .next s := rfl
@[simp] theorem Res.outcome_raised {α : Type} (s : State) : (Res.raised s : Res α).outcome = .next s := rfl
@[simp] theorem Res.outcome_fault {α : Type} (f : Fault) : (Res.fault f : Res α).outcome = .fault f := rfl
@[simp] theorem Res.outcome_refused {α : Type} (r : Refusal) : (Res.refused r : Res α).outcome = .refused r := rfl

theorem raise_eq {α : Type} (c : Cause) (s : State) : (raise c s : Res α) = .raised (s.raiseViolation c) := rfl

/-- An outcome is a next state exactly when the operation ended or raised there. -/
theorem Res.outcome_next_iff {α : Type} (m : Res α) (t : State) :
    m.outcome = .next t ↔ (∃ a, m = .ok a t) ∨ m = .raised t := by
  cases m <;> simp [Res.outcome]

/-- A sequence ends normally exactly when both of its parts do. -/
theorem Res.bind_eq_ok {α β : Type} (m : Res α) (k : α → State → Res β) (b : β) (t : State) :
    m.bind k = .ok b t ↔ ∃ a s, m = .ok a s ∧ k a s = .ok b t := by
  cases m <;> simp [Res.bind]

/-- A sequence raises exactly when its first part does, or its second part after the first has ended. -/
theorem Res.bind_eq_raised {α β : Type} (m : Res α) (k : α → State → Res β) (t : State) :
    m.bind k = .raised t ↔ m = .raised t ∨ ∃ a s, m = .ok a s ∧ k a s = .raised t := by
  cases m <;> simp [Res.bind]

@[simp] theorem live_of_ne {s : State} {k : Result} (h : s.phase ≠ .halted) : live s k = k := by simp [live, h]

@[simp] theorem live_of_halted {s : State} {k : Result} (h : s.phase = .halted) :
    live s k = .fault (.halted s.fatal) := by simp [live, h]

/-- A live operation answers a next state only in a block that is not halted. -/
theorem live_next_iff {s t : State} {k : Result} : live s k = .next t ↔ s.phase ≠ .halted ∧ k = .next t := by
  by_cases h : s.phase = .halted <;> simp [live, h]

/-! ## The arena -/

/-- `MemRead`: out of bounds, not owned, a byte without a value, or the bytes. -/
theorem memRead_cases (who : Agent) (h : Slot) (k n : Nat) (s : State) :
    (192 < k + n ∧ memRead who h k n s = .raised (s.raiseViolation .indexOutOfRange)) ∨
    (k + n ≤ 192 ∧ owns who h s = false ∧ memRead who h k n s = .raised (s.raiseViolation .badHandle)) ∨
    (k + n ≤ 192 ∧ owns who h s = true ∧ Memory.readBlock s.mem (slotAddr h k) n = none ∧
      memRead who h k n s = .fault (.unwrittenByte h)) ∨
    (k + n ≤ 192 ∧ owns who h s = true ∧ ∃ bs, Memory.readBlock s.mem (slotAddr h k) n = some bs ∧
      memRead who h k n s = .ok bs s) := by
  unfold memRead
  split
  · exact .inl ⟨‹_›, rfl⟩
  · split
    · split
      · exact .inr (.inr (.inr ⟨by omega, ‹_›, _, ‹_›, rfl⟩))
      · exact .inr (.inr (.inl ⟨by omega, ‹_›, ‹_›, rfl⟩))
    · exact .inr (.inl ⟨by omega, Bool.eq_false_iff.2 ‹_›, rfl⟩)

/-- `MemWrite`: out of bounds, not owned, or the bytes written. -/
theorem memWrite_cases (who : Agent) (h : Slot) (k : Nat) (bs : List Byte) (s : State) :
    (192 < k + bs.length ∧ memWrite who h k bs s = .raised (s.raiseViolation .indexOutOfRange)) ∨
    (k + bs.length ≤ 192 ∧ owns who h s = false ∧ memWrite who h k bs s = .raised (s.raiseViolation .badHandle)) ∨
    (k + bs.length ≤ 192 ∧ owns who h s = true ∧
      memWrite who h k bs s = .ok () { s with mem := Memory.write s.mem (slotAddr h k) bs }) := by
  unfold memWrite
  split
  · exact .inl ⟨‹_›, rfl⟩
  · split
    · exact .inr (.inr ⟨by omega, ‹_›, rfl⟩)
    · exact .inr (.inl ⟨by omega, Bool.eq_false_iff.2 ‹_›, rfl⟩)

/-! ## Ownership -/

/-- What it means to own a handle. -/
theorem owns_iff (who : Agent) (h : Slot) (s : State) :
    owns who h s = true ↔
      (who, h) ∈ s.held ∨ (who = .rx ∧ s.asm = some h) ∨ (who = .disp ∧ s.cur = some h) := by
  simp [owns, or_assoc]

/-- Where a released handle left. -/
theorem release_cases (who : Agent) (h : Slot) (s : State) (ho : owns who h s = true) :
    ((who, h) ∈ s.held ∧ s.release who h = { s with held := s.held.erase (who, h) }) ∨
    ((who, h) ∉ s.held ∧ who = .rx ∧ s.asm = some h ∧ s.release who h = { s with asm := none }) ∨
    ((who, h) ∉ s.held ∧ who = .disp ∧ s.cur = some h ∧ s.release who h = { s with cur := none }) := by
  rw [owns_iff] at ho
  unfold State.release
  by_cases h1 : (who, h) ∈ s.held
  · left; simp [h1, State.unhold]
  · right
    rcases ho with ho | ⟨rfl, ho⟩ | ⟨rfl, ho⟩
    · exact absurd ho h1
    · left; simp [h1, ho]
    · right; simp [h1, ho]

/-! ## The pool -/

/-- The slot taken is a free one. -/
theorem chooseFree_mem {s : State} {h : Slot} {d : Nat} (hc : chooseFree s = some (h, d)) : h ∈ s.free := by
  unfold chooseFree at hc
  split at hc
  · cases hc
  · rename_i x hx; simp at hc; simp [hx, hc.1]
  · rename_i x xs _ hx
    simp only [Option.some.injEq, Prod.mk.injEq] at hc
    rw [← hc.1, hx, List.getD_eq_getElem _ _ (Nat.mod_lt _ (by simp))]
    exact List.getElem_mem _

/-- There is a choice exactly when a slot is free. -/
theorem chooseFree_none {s : State} : chooseFree s = none ↔ s.free = [] := by
  unfold chooseFree; split <;> simp_all

/-- POOL_ALLOC: exhausted, or a free slot allocated. -/
theorem poolAlloc_cases (who : Agent) (init : Image) (s : State) :
    (s.free = [] ∧ poolAlloc who init s = .raised (s.raiseViolation .poolExhausted)) ∨
    (∃ h d, h ∈ s.free ∧ chooseFree s = some (h, d) ∧
      poolAlloc who init s = .ok h { s with
        free := s.free.erase h, draws := d
        mem := Memory.write s.mem (slotAddr h 0) init.toList
        held := (who, h) :: s.held }) := by
  unfold poolAlloc
  split
  · exact .inl ⟨chooseFree_none.1 ‹_›, rfl⟩
  · exact .inr ⟨_, _, chooseFree_mem ‹_›, ‹_›, rfl⟩

/-- POOL_FREE: a bad handle, or the slot freed. -/
theorem poolFree_cases (who : Agent) (h : Slot) (s : State) :
    ((owns who h s = false ∨ h ∈ s.free) ∧ poolFree who h s = .raised (s.raiseViolation .badHandle)) ∨
    (owns who h s = true ∧ h ∉ s.free ∧
      poolFree who h s = .ok () { s.release who h with free := insertFree h s.free }) := by
  unfold poolFree
  by_cases h1 : owns who h s = true <;> by_cases h2 : h ∈ s.free <;> simp [h1, h2, raise]

/-- NEXT_TAKE: nothing pending, or the pending handle taken. -/
theorem nextTake_cases (who : Agent) (s : State) :
    (s.next = none ∧ nextTake who s = .ok none s) ∨
    (∃ h, s.next = some h ∧ nextTake who s = .ok (some h) { s with next := none, held := (who, h) :: s.held }) := by
  unfold nextTake
  cases h : s.next with
  | none => simp
  | some x => exact .inr ⟨x, rfl, rfl⟩

/-- NEXT_REPLACE: a bad handle, an empty cell filled, or the displaced handle freed. -/
theorem nextReplace_cases (who : Agent) (h : Slot) (s : State) :
    ((owns who h s = false ∨ h ∈ s.free) ∧ nextReplace who h s = .raised (s.raiseViolation .badHandle)) ∨
    (owns who h s = true ∧ h ∉ s.free ∧ s.next = none ∧
      nextReplace who h s = .ok () { s.release who h with next := some h }) ∨
    (owns who h s = true ∧ h ∉ s.free ∧ ∃ o, s.next = some o ∧
      nextReplace who h s = poolFree who o (State.hold who o { s.release who h with next := some h })) := by
  unfold nextReplace
  by_cases h1 : owns who h s = true <;> by_cases h2 : h ∈ s.free <;> simp [h1, h2, raise]
  cases h3 : s.next <;> simp

/-- SEND_ROW: a row that does not exist, or the events of the row. -/
theorem sendRow_cases (row : Int) (px : RowPixels) (s : State) :
    ((row < 0 ∨ 7 < row) ∧ sendRow row px s = .raised (s.raiseViolation .rowOutOfRange)) ∨
    (0 ≤ row ∧ row ≤ 7 ∧
      sendRow row px s = .ok () (s.emit (rowEvents (Fin.ofNat 8 row.toNat) (px.map gammaColor)))) := by
  unfold sendRow
  split
  · exact .inr ⟨by omega, by omega, rfl⟩
  · exact .inl ⟨by omega, rfl⟩

/-- A critical section ends as its body does, and leaves itself (R262). -/
theorem critical_ok {α : Type} {who : Agent} {cells : List Shared} {body : State → Res α} {s t : State} {a : α} :
    critical who cells body s = .ok a t ↔ ∃ s', body (s.enterLock who cells) = .ok a s' ∧ t = s'.leaveLock := by
  unfold critical
  rw [Res.bind_eq_ok]
  constructor
  · rintro ⟨a', s', h1, h2⟩
    simp only [Res.ok.injEq] at h2
    exact ⟨s', by rw [h1, h2.1], h2.2.symm⟩
  · rintro ⟨s', h1, rfl⟩; exact ⟨a, s', h1, rfl⟩

/-- A critical section raises exactly when its body does. -/
theorem critical_raised {α : Type} {who : Agent} {cells : List Shared} {body : State → Res α} {s t : State} :
    critical who cells body s = .raised t ↔ body (s.enterLock who cells) = .raised t := by
  unfold critical
  rw [Res.bind_eq_raised]; simp

/-! ## The lines -/

/-- Two sequences of events in turn are one. -/
theorem afterAll_append (ls : Lines) (a b : List LineEvent) :
    Lines.afterAll ls (a ++ b) = Lines.afterAll (Lines.afterAll ls a) b := by
  simp [Lines.afterAll]

/-- Emitting in two parts is emitting the whole. -/
theorem emit_append (a b : List LineEvent) (s : State) : (s.emit a).emit b = s.emit (a ++ b) := by
  simp [State.emit, afterAll_append]

/-- The events of a row are the line steps of a row with the data bits taken from the working colours (R182). -/
theorem rowSeq_map {β γ : Type} (f : β → γ) (row : Fin 8) (sda : Fin 8 → Channel → Nat → β) (ev : LineEvent → β) :
    (rowSeq row sda ev).map f = rowSeq row (fun i ch k => f (sda i ch k)) (fun e => f (ev e)) := by
  have hb : ∀ (g : Nat → β), (byteSeq g ev).map f = byteSeq (fun k => f (g k)) fun e => f (ev e) := by
    intro g; simp [byteSeq, msbFirst, sckPulse]
  simp only [rowSeq, List.map_append, List.map_flatMap, hb, List.map_cons, List.map_nil, List.map_map,
    Function.comp_def, apply_ite (List.map f)]

end Sys2Proof.Machine
end

