-- ==== Sys2Proof/Laws/PerInstr.lean ====
section
/-! SUPPORT. A law of every operation, one lemma a constructor: what encodes is one byte, and decoding it gives the operation
back, whatever byte sequence follows (spec/30_encoding.md R91, R100, R101). -/

namespace Sys2Proof.Laws.EncodeShape

/-- The bytes of a well-formed operation are one byte, which decodes to it. -/
def Statement (i : Instr) : Prop :=
  ∀ bs, wellFormed i = true → encode i = some bs → bs.length = 1 ∧ ∀ rest, decode (bs ++ rest) = .ok (i, rest)

/-- An operation without an encoding. -/
theorem of_none {i : Instr} (h : encode i = none) : Statement i := fun bs _ hb => by simp [h] at hb

theorem sync : Statement .sync := by
  rintro bs - h
  obtain rfl : [0xFF#8] = bs := Option.some.inj h
  exact ⟨rfl, fun _ => rfl⟩

theorem data (d : Byte) : Statement (.data d) := by
  rintro bs hw h
  obtain rfl : [d] = bs := Option.some.inj h
  have hd : d ≠ 0xFF#8 := by simpa [wellFormed, payloadOk] using hw
  have hs : syncPattern.holds d = false := by
    have hm : d &&& 0xFF#8 = d := BitVec.and_allOnes
    simpa [syncPattern, BytePattern.holds, hm] using hd
  exact ⟨rfl, fun rest => by simp [decode, decodeByte, hs]⟩

theorem rxByte : Statement .rxByte := of_none rfl
theorem noticeChange : Statement .noticeChange := of_none rfl
theorem displayTick : Statement .displayTick := of_none rfl
theorem frameSwap : Statement .frameSwap := of_none rfl
theorem saverTick : Statement .saverTick := of_none rfl
theorem reset : Statement .reset := of_none rfl
theorem boot : Statement .boot := of_none rfl
theorem drvInit : Statement .drvInit := of_none rfl
theorem sendRow (row : Int) (px : RowPixels) : Statement (.sendRow row px) := of_none rfl
theorem shiftByte (v : Byte) : Statement (.shiftByte v) := of_none rfl
theorem setLine (l : Line) (v : Level) : Statement (.setLine l v) := of_none rfl
theorem pulseSck : Statement .pulseSck := of_none rfl
theorem pulseLat : Statement .pulseLat := of_none rfl
theorem delayMs (n : Nat) : Statement (.delayMs n) := of_none rfl
theorem gammaCorrect (v : Byte) : Statement (.gammaCorrect v) := of_none rfl
theorem colorGamma (c : Color) : Statement (.colorGamma c) := of_none rfl
theorem colorMul (c : Color) (f : Scalar) : Statement (.colorMul c f) := of_none rfl
theorem colorDiv (c : Color) (f : Scalar) : Statement (.colorDiv c f) := of_none rfl
theorem imgSolid (c : Color) : Statement (.imgSolid c) := of_none rfl
theorem imgGradient (c : Color) : Statement (.imgGradient c) := of_none rfl
theorem imgIndexRd (img : ImgRef) (row col : Int) : Statement (.imgIndexRd img row col) := of_none rfl
theorem imgIndexWr (img : ImgRef) (row col : Int) (c : Color) : Statement (.imgIndexWr img row col c) := of_none rfl
theorem imgByteRd (img : ImgRef) (k : Int) : Statement (.imgByteRd img k) := of_none rfl
theorem imgByteWr (img : ImgRef) (k : Int) (v : Byte) : Statement (.imgByteWr img k v) := of_none rfl
theorem imgRow (img : ImgRef) (row : Int) : Statement (.imgRow img row) := of_none rfl
theorem setPixel (img : ImgRef) (x y : Int) (c : Color) : Statement (.setPixel img x y c) := of_none rfl
theorem canvasSize : Statement .canvasSize := of_none rfl
theorem poolAlloc (who : Agent) (init : Image) : Statement (.poolAlloc who init) := of_none rfl
theorem poolFree (who : Agent) (h : Slot) : Statement (.poolFree who h) := of_none rfl
theorem nextReplace (who : Agent) (h : Slot) : Statement (.nextReplace who h) := of_none rfl
theorem nextTake (who : Agent) : Statement (.nextTake who) := of_none rfl
theorem lock (who : Agent) (op : LockOp) : Statement (.lock who op) := of_none rfl
theorem halt (c : Cause) : Statement (.halt c) := of_none rfl

end Sys2Proof.Laws.EncodeShape
end

