-- ==== Sys2Proof/Laws/Runs.lean ====
section
/-! SUPPORT. The small lemmas of endless runs and of the observers of a trace. -/

namespace Sys2Proof.Machine

@[simp] theorem instant_none (s : State) : instant none s = step { s with stim := [] } := rfl
@[simp] theorem instant_some (m : EnvMove) (s : State) : instant (some m) s = step { s with stim := [.env m] } := rfl

/-- The bits of two traces one after the other; the second starts at the level of SDA the first leaves. -/
theorem shiftedBits_append (ls : Lines) (evs more : List LineEvent) :
    shiftedBits ls.sda (evs ++ more) = shiftedBits ls.sda evs ++ shiftedBits (Lines.afterAll ls evs).sda more := by
  induction evs generalizing ls with
  | nil => rfl
  | cons e evs ih =>
    have h := ih (Lines.after ls e)
    simp only [Lines.afterAll, List.foldl_cons] at h ⊢
    cases e with
    | delay n => exact h
    | set l v =>
      cases l with
      | sck =>
        simp only [List.cons_append, shiftedBits]
        split
        · rw [List.cons_append]; exact congrArg _ h
        · exact h
      | sb | lat | rst | sda | row i => exact h

/-- A trace that writes no LAT leaves the frame open: what it shifts is added to the bits shifted before. -/
theorem committedFrames_no_lat (ls : Lines) (bits : List Level) (evs more : List LineEvent)
    (h : ∀ v, LineEvent.set .lat v ∉ evs) :
    committedFrames ls.sda bits (evs ++ more) =
      committedFrames (Lines.afterAll ls evs).sda (bits ++ shiftedBits ls.sda evs) more := by
  induction evs generalizing ls bits with
  | nil => simp [Lines.afterAll, shiftedBits]
  | cons e evs ih =>
    have h' : ∀ v, LineEvent.set .lat v ∉ evs := fun v hv => h v (List.mem_cons_of_mem _ hv)
    have ih' := fun b => ih (Lines.after ls e) b h'
    simp only [Lines.afterAll, List.foldl_cons] at ih' ⊢
    cases e with
    | delay n => exact ih' bits
    | set l v =>
      cases l with
      | sck =>
        simp only [List.cons_append, shiftedBits, committedFrames]
        split
        · rw [show bits ++ ls.sda :: shiftedBits ls.sda evs = (bits ++ [ls.sda]) ++ shiftedBits ls.sda evs by simp]
          exact ih' _
        · exact ih' bits
      | lat => exact absurd List.mem_cons_self (h v)
      | sb | rst | sda | row i => exact ih' bits

end Sys2Proof.Machine
end

