-- ==== Sys2Proof/Tests/Slice0.lean ====
section
/-! SUPPORT. The author's own tests. Expected values come from spec/95_test_vectors.md (V1 to V13) and from the rules named;
none is the model's own answer. The second half shows, for each obligation with hypotheses, a state that meets them. -/

namespace Sys2Proof.Machine.Tests

-- One theorem after the other: the checker's threads have large stacks.
set_option Elab.async false

/-- A field of the next state. -/
def after {α : Type} (o : Result) (f : State → α) : Option α :=
  match o with
  | .next s => some (f s)
  | .fault _ => none
  | .refused _ => none

/-- The operation was refused. -/
def refusedAs (o : Result) : Option Refusal :=
  match o with
  | .refused r => some r
  | .next _ => none
  | .fault _ => none

/-- The block right after BOOT, with black images, and with `next` and `free` as given. -/
def runState (next : Option Slot) (free : List Slot) : State :=
  { State.reset with
    phase := .run, cur := some 0, asm := some 1, free := free, next := next
    lines := ⟨true, true, true, false, true, Vector.replicate 8 false⟩
    mem := Memory.cells 0 (List.replicate 576 0) }

/-- Nothing pending: the fixture of V7 and V11. -/
def s0 : State := runState none [2]

/-- A frame pending. -/
def s1 : State := runState (some 2) []

/-- IMG_K, "the Image with byte k = k". -/
def imgK : Image := Vector.ofFn fun k => BitVec.ofNat 8 k.val

/-- The curve LUT_A. -/
def lutA (v : Byte) : Byte := v / 2

/-- The curve LUT_B. -/
def lutB (v : Byte) : Byte := v

/-! ## Ill-formed terms -/

theorem test_wf_data_sync : wellFormed (.data 0xFF#8) = false := by decide
theorem test_wf_data : wellFormed (.data 0xFE#8) = true := by decide
theorem test_wf_lock_nothing : wellFormed (.lock .rx (.enter [])) = false := by decide
theorem test_wf_lock_twice : wellFormed (.lock .rx (.enter [.pool, .pool])) = false := by decide
theorem test_wf_lock : wellFormed (.lock .rx (.enter [.next, .pool])) = true := by decide

/-! ## Words written out from R91: `11111111`, and one word of each of the eight patterns of DATA -/

theorem test_decode_sync : decodeTableWord 8 0b11111111 = some .sync := by decide
theorem test_decode_data_0 : decodeTableWord 8 0b01010101 = some (.data 0x55#8) := by decide
theorem test_decode_data_10 : decodeTableWord 8 0b10111111 = some (.data 0xBF#8) := by decide
theorem test_decode_data_110 : decodeTableWord 8 0b11000101 = some (.data 0xC5#8) := by decide
theorem test_decode_data_1110 : decodeTableWord 8 0b11101010 = some (.data 0xEA#8) := by decide
theorem test_decode_data_11110 : decodeTableWord 8 0b11110011 = some (.data 0xF3#8) := by decide
theorem test_decode_data_111110 : decodeTableWord 8 0b11111001 = some (.data 0xF9#8) := by decide
theorem test_decode_data_1111110 : decodeTableWord 8 0b11111100 = some (.data 0xFC#8) := by decide
theorem test_decode_data_11111110 : decodeTableWord 8 0b11111110 = some (.data 0xFE#8) := by decide
theorem test_encode_sync : encode .sync = some [0xFF#8] ∧ encode (.data 0x0A#8) = some [0x0A#8] := by decide
theorem test_fetch_word : after (step (s0.withFetchWord 8 0xFF)) State.rxState = some (.filling 0) := by decide +kernel

/-! ## V1, V2, V9, V13: the driver -/

/-- The working colours of V1 under LUT_A. -/
def gV1 : RowPixels := ((Vector.replicate 8 Color.black).set 7 ⟨10, 20, 30⟩).map (Color.map (gammaWith .saturate lutA))

theorem test_send_row_first_byte : (rowEvents 3 gV1).take 12 =
    [.set .sda false, .set .sck true, .set .sck false, .set .sda false, .set .sck true, .set .sck false,
     .set .sda false, .set .sck true, .set .sck false, .set .sda true, .set .sck true, .set .sck false] := by decide +kernel
theorem test_send_row_tail : (rowEvents 3 gV1)[216]? = some (.set (.row 2) false) ∧
    (rowEvents 3 gV1).drop 576 = [.set .sck false, .set .lat false, .set .lat true, .set (.row 3) true] := by decide +kernel
theorem test_send_row_count : after (exec (.sendRow 0 (Vector.replicate 8 Color.black)) s0) (fun s => s.trace.length) = some 580 ∧
    after (exec (.sendRow 8 (Vector.replicate 8 Color.black)) s0) (fun s => (s.fatal, s.trace)) =
      some (some .rowOutOfRange, []) := by decide +kernel
theorem test_shift_byte : after (exec (.shiftByte 0x1E) s0) (fun s => shiftedBits false s.trace) =
    some [false, false, false, true, true, true, true, false] := by decide +kernel
theorem test_set_line : after (exec (.setLine .sda true) s0) (fun s => (s.trace, s.lines)) =
    some ([.set .sda true], s0.lines) := by decide +kernel
theorem test_pulse_sck : after (exec .pulseSck s0) State.trace = some [.set .sck true, .set .sck false] := by decide +kernel
theorem test_pulse_lat : after (exec .pulseLat s0) State.trace = some [.set .lat false, .set .lat true] := by decide +kernel
theorem test_delay : after (exec (.delayMs 100) s0) State.trace = some [.delay 100] := by decide +kernel
theorem test_drv_init_ends : drvInitEvents.take 6 =
      [.set .rst false, .delay 100, .set .rst true, .set .sb false, .set .sda true, .set .sck true] ∧
    drvInitEvents.drop 291 = [.set .sck true, .set .sck false, .set .lat false, .set .lat true, .set .sb true] := by
  decide +kernel
theorem test_drv_init_lines : after (exec .drvInit State.reset) (fun s => (s.trace.length, s.lines)) =
    some (296, ⟨true, true, true, false, true, Vector.replicate 8 false⟩) := by decide +kernel

/-! ## V3, V4: colour -/

theorem test_gamma_saturates : [0, 1, 63, 64, 127, 128, 129, 200, 254, 255].map (fun x => gammaWith .saturate lutB x) =
    [0, 2, 126, 128, 254, 255, 255, 255, 255, 255] := by decide +kernel
theorem test_gamma_wraps : [127, 128, 200, 255].map (fun x => gammaWith .wrap lutB x) = [254, 0, 144, 254] := by decide +kernel
theorem test_color_gamma : Color.map (gammaWith .saturate lutA) ⟨11, 21, 255⟩ = ⟨10, 20, 254⟩ := by decide +kernel
theorem test_color_mul : after (exec (.colorMul ⟨10, 100, 200⟩ (.rat (3 / 2))) s0) State.ret = some (.color ⟨15, 150, 255⟩) ∧
    after (exec (.colorMul ⟨3, 5, 7⟩ (.rat (1 / 2))) s0) State.ret = some (.color ⟨1, 2, 3⟩) := by decide +kernel
theorem test_color_mul_negative : after (exec (.colorMul ⟨10, 100, 200⟩ (.rat (-1))) s0) State.ret = some (.color ⟨0, 0, 0⟩) := by
  decide +kernel
theorem test_color_div : after (exec (.colorDiv ⟨255, 128, 57⟩ (.rat 57)) s0) State.ret = some (.color ⟨4, 2, 1⟩) ∧
    after (exec (.colorDiv ⟨100, 0, 1⟩ (.rat (1 / 4))) s0) State.ret = some (.color ⟨255, 0, 4⟩) := by decide +kernel
theorem test_color_div_zero : refusedAs (exec (.colorDiv ⟨1, 2, 3⟩ (.rat 0)) s0) = some .scalarUndefined := by decide +kernel

/-! ## V5, V6: images -/

theorem test_gradient : [(0, 0), (0, 7), (1, 1), (3, 4), (7, 0), (7, 7)].map (fun rc : Nat × Nat =>
      colorAt (gradientImage ⟨255, 114, 57⟩).toList (8 * rc.1 + rc.2)) =
    [⟨255, 114, 57⟩, ⟨31, 14, 7⟩, ⟨85, 38, 19⟩, ⟨18, 8, 4⟩, ⟨5, 2, 1⟩, ⟨4, 2, 1⟩] := by decide +kernel
theorem test_solid : (solidImage ⟨1, 2, 3⟩).toList.take 7 = [1, 2, 3, 1, 2, 3, 1] := by decide +kernel
theorem test_index_rd : after (exec (.imgIndexRd (.value imgK) 1 2) s0) State.ret = some (.color ⟨30, 31, 32⟩) ∧
    after (exec (.imgIndexRd (.value imgK) 7 7) s0) State.ret = some (.color ⟨189, 190, 191⟩) := by decide +kernel
theorem test_index_rd_out : [((8 : Int), (0 : Int)), (0, 8), (-1, 0), (0, -1)].map (fun rc =>
      after (exec (.imgIndexRd (.value imgK) rc.1 rc.2) s0) State.fatal) =
    List.replicate 4 (some (some .indexOutOfRange)) := by decide +kernel
theorem test_index_wr : after (exec (.imgIndexWr (.slot .disp 0) 1 0 ⟨9, 8, 7⟩) s0) (fun s =>
      Memory.readBlock s.mem 23 5) = some (some [0, 9, 8, 7, 0]) := by decide +kernel
theorem test_index_wr_out : after (exec (.imgIndexWr (.slot .disp 0) 8 0 ⟨9, 8, 7⟩) s0) (fun s => (s.fatal, s.mem)) =
    some (some .indexOutOfRange, s0.mem) := by decide +kernel
theorem test_byte_rd : after (exec (.imgByteRd (.value imgK) 26) s0) State.ret = some (.byte 26) ∧
    after (exec (.imgByteRd (.value imgK) 192) s0) State.fatal = some (some .indexOutOfRange) := by decide +kernel
theorem test_byte_wr : after (exec (.imgByteWr (.slot .rx 1) 191 9) s0) (fun s => Memory.readBlock s.mem 382 3) =
    some (some [0, 9, 0]) := by decide +kernel
theorem test_byte_wr_foreign : after (exec (.imgByteWr (.slot .rx 0) 191 9) s0) State.fatal = some (some .badHandle) := by
  decide +kernel
theorem test_img_row : after (exec (.imgRow (.value imgK) 2) s0) State.ret =
    some (.row (Vector.ofFn fun i => ⟨BitVec.ofNat 8 (48 + 3 * i.val), BitVec.ofNat 8 (49 + 3 * i.val),
      BitVec.ofNat 8 (50 + 3 * i.val)⟩)) := by decide +kernel
theorem test_set_pixel : after (exec (.setPixel (.slot .disp 0) 7 0 ⟨9, 8, 7⟩) s0) (fun s =>
      Memory.readBlock s.mem 20 5) = some (some [0, 9, 8, 7, 0]) ∧
    after (exec (.setPixel (.slot .disp 0) 0 7 ⟨9, 8, 7⟩) s0) (fun s =>
      Memory.readBlock s.mem 167 5) = some (some [0, 9, 8, 7, 0]) := by decide +kernel
theorem test_set_pixel_out : [((8 : Int), (0 : Int)), (-1, 0), (0, 8), (0, -1), (-120, 7)].map (fun xy =>
      after (exec (.setPixel (.slot .disp 0) xy.1 xy.2 ⟨9, 8, 7⟩) s0) (fun s => (s.fatal, s.mem))) =
    List.replicate 5 (some (none, s0.mem)) := by decide +kernel
theorem test_canvas : after (exec .canvasSize s0) State.ret = some (.size 8 8) := by decide +kernel

/-! ## V7: the pool, step by step -/

/-- V7 after step 1: the caller holds 2. -/
def s2 : State := { s0 with free := [], held := [(.saver, 2)] }

theorem test_pool_alloc : after (exec (.poolAlloc .saver imgK) s0) (fun s =>
      (s.ret, s.free, s.held, Memory.read s.mem 385)) = some (.handle 2, [], [(.saver, 2)], some 1) := by decide +kernel
theorem test_pool_exhausted : after (exec (.poolAlloc .saver imgK) s2) (fun s => (s.fatal, s.free)) =
    some (some .poolExhausted, []) := by decide +kernel
theorem test_next_replace : after (exec (.nextReplace .saver 2) s2) (fun s => (s.next, s.free, s.held)) =
    some (some 2, [], []) := by decide +kernel
theorem test_next_replace_displaces : after (exec (.nextReplace .rx 1) s1) (fun s => (s.next, s.free, s.asm)) =
    some (some 1, [2], none) := by decide +kernel
theorem test_next_take : after (exec (.nextTake .notice) s1) (fun s => (s.ret, s.next, s.held)) =
    some (.optHandle (some 2), none, [(.notice, 2)]) := by decide +kernel
theorem test_next_take_empty : after (exec (.nextTake .notice) s0) (fun s => (s.ret, s.next)) =
    some (.optHandle none, none) := by decide +kernel
theorem test_pool_free : after (exec (.poolFree .saver 2) s2) (fun s => (s.free, s.held)) = some ([2], []) := by decide +kernel
theorem test_pool_free_twice : after (exec (.poolFree .saver 2) s0) State.fatal = some (some .badHandle) := by decide +kernel

/-! ## V8, V10: the deframer and the counter -/

theorem test_sync_restarts : after (exec .sync { s0 with rxState := .filling 50 }) State.rxState = some (.filling 0) := by
  decide +kernel
theorem test_data_dropped : after (exec (.data 0xFE) s0) id = some s0 := by decide +kernel
theorem test_data_last : after (exec (.data 0x07) { s0 with rxState := .filling 191 }) (fun s =>
      (s.next, s.asm, s.noticePending, s.rxState, Memory.read s.mem 383)) =
    some (some 1, some 2, 1, .awaitingSync, some 7) := by decide +kernel
theorem test_rx_byte : after (exec .rxByte { s0 with rxFifo := [0x0A, 0xFF], rxState := .filling 0 }) (fun s =>
      (s.rxFifo, s.rxState, Memory.read s.mem 192)) = some ([0xFF], .filling 1, some 0x0A) := by decide +kernel
theorem test_rx_byte_sync : after (exec .rxByte { s0 with rxFifo := [0xFF], rxState := .filling 191 }) (fun s =>
      (s.rxState, s.noticePending)) = some (.filling 0, 0) := by decide +kernel
theorem test_notice : after (exec .noticeChange { s0 with changes := 7, noticePending := 2 }) (fun s =>
      (s.changes, s.noticePending)) = some (8, 1) := by decide +kernel
theorem test_notice_wraps : after (exec .noticeChange { s0 with changes := 0xFFFFFFFF, noticePending := 1 }) (fun s =>
      (s.changes, s.noticePending)) = some (0, 0) := by decide +kernel

/-! ## R223, P1: the scanout; V11: the screensaver -/

theorem test_display_tick : after (exec .displayTick { s0 with dispDue := true }) (fun s =>
      (s.dispDue, s.row, s.trace.length, s.cur, s.lines.rows[(0 : Fin 8)])) = some (false, 1, 580, some 0, true) := by decide +kernel
theorem test_display_wrap : after (exec .displayTick { s1 with dispDue := true, row := 7 }) (fun s =>
      (s.row, s.cur, s.next, s.free, s.lines.rows[(7 : Fin 8)])) = some (0, some 2, none, [0], true) := by decide +kernel
theorem test_frame_swap : after (exec .frameSwap { s1 with next := some 1, asm := some 2 }) (fun s => (s.cur, s.next, s.free)) =
    some (some 1, none, [0]) := by decide +kernel
theorem test_saver_idle : after (exec .saverTick { s1 with saverDue := true, offset := -120 }) (fun s =>
      (s.next, s.free, s.offset, s.saverDue)) = some (some 2, [], 30, false) := by decide +kernel
theorem test_saver_active : after (exec .saverTick { s1 with saverDue := true, changes := 5, lastSeen := 3, offset := 12 })
      (fun s => (s.lastSeen, s.offset, s.next, s.mem)) = some (5, 30, some 2, s1.mem) := by decide +kernel

/-! ## V12: reset, boot, faults, sections -/

theorem test_reset : exec .reset { s1 with phase := .halted, fatal := some .badHandle, rxFifo := [1], changes := 9 } =
    .next { State.reset with mem := offArena 1, draws := 1 } := rfl
theorem test_boot : after (exec .boot State.reset) (fun s => (s.phase, s.cur, s.asm, s.free, s.trace.length)) =
    some (.run, some 0, some 1, [2], 296) := by decide +kernel
theorem test_halt : after (exec (.halt .badHandle) { s0 with rxFifo := [1] }) (fun s => (s.phase, s.fatal, s.rxFifo, s.lines)) =
    some (.halted, some .badHandle, [1], s0.lines) := by decide +kernel
theorem test_lock_raises : after (exec (.lock .notice (.enter [.changes])) s0) State.eff = some 2 ∧
    after (exec (.lock .disp (.enter [.next, .pool])) s0) State.eff = some 3 := by decide +kernel
theorem test_lock_leave : after (exec (.lock .disp .leave) { s0 with locks := [(.disp, [.next])] }) id = some s0 ∧
    refusedAs (exec (.lock .disp .leave) s0) = some .noSection := by decide +kernel
/-- R98: the bank-0 frame is 144 ones. -/
theorem test_bank0 : shiftedBits false drvInitEvents = List.replicate 144 true := by decide +kernel
/-- R98, P1: the trace so far holds the bank-0 frame and one frame for each row sent. -/
theorem test_committed : (committedFrames false []
      (drvInitEvents ++ rowEvents 0 gV1 ++ rowEvents 1 gV1)).map List.length = [144, 192, 192] := by decide +kernel
/-- R10: the sizes agree. -/
theorem test_sizes : Config.imgBytes = 192 ∧ Config.rowBytes = 24 ∧ Config.rowBits = 192 := by decide

/-! ## Witnesses: states and operands that meet the hypotheses of the obligations, clause by clause -/

theorem full_s0 : ArenaFull s0 := by
  intro a ha
  change (Memory.read (Memory.cells 0 (List.replicate 576 0)) a).isSome = true
  generalize hn : 576 = n at ha ⊢
  simp [Memory.read_cells, ha]

theorem dark_s0 : ∀ i : Fin 8, s0.lines.rows[i] = false := by decide

/-- A state that differs from `s0` in what arrives and what is due only is good. -/
theorem good_of (s : State) (hm : s.mem = s0.mem) (hl : s.lines = s0.lines) (ha : s.acts = []) (hk : s.locks = [])
    (hh : s.held = []) (hf : s.fatal = none) (hp : s.phase = .run) (ho : s.offset = 30) (has : s.asm = some 1)
    (hc : s.cur = some 0) (hpool : PoolInv s) (ht : Stim.tick ∉ s.stim) : GoodState s where
  atomic := ht
  rest := ⟨ha, hk, hh⟩
  mem := by unfold MemInv; rw [hm]; decide +kernel
  fatalNone := hf
  phase := .inr hp
  off := by simp [hp]
  run := fun _ =>
    { pool := hpool
      asmSome := by simp [has]
      curSome := by simp [hc]
      offsetLow := by omega
      offsetHigh := by omega
      rows := by
        rw [hl]
        intro i h
        simp [dark_s0 i] at h
      control := by rw [hl]; unfold ControlIdle; decide
      full := by intro a h; rw [hm]; exact full_s0 a h }

/-- `s0` with bytes to receive, with ticks due and with a stimulus. -/
def s0With (fifo : List Byte) (disp saver : Bool) (notice : Nat) (stim : List Stim) : State :=
  { s0 with rxFifo := fifo, dispDue := disp, saverDue := saver, noticePending := notice, stim := stim }

/-- `s1` likewise. -/
def s1With (fifo : List Byte) (disp saver : Bool) (notice : Nat) (stim : List Stim) : State :=
  { s1 with rxFifo := fifo, dispDue := disp, saverDue := saver, noticePending := notice, stim := stim }

theorem pool_s0 : PoolInv s0 := by unfold PoolInv; decide
theorem pool_s1 : PoolInv s1 := by unfold PoolInv; decide

theorem good_s0With (fifo : List Byte) (disp saver : Bool) (notice : Nat) (stim : List Stim) (h : Stim.tick ∉ stim) :
    GoodState (s0With fifo disp saver notice stim) :=
  good_of _ rfl rfl rfl rfl rfl rfl rfl rfl rfl rfl pool_s0 h

theorem good_s1With (fifo : List Byte) (disp saver : Bool) (notice : Nat) (stim : List Stim) (h : Stim.tick ∉ stim) :
    GoodState (s1With fifo disp saver notice stim) :=
  good_of _ rfl rfl rfl rfl rfl rfl rfl rfl rfl rfl pool_s1 h

/-- `phase ≠ halted`, the only hypothesis on the state of HaltTakesTheViolation, GammaDoublesAndClamps, ScalingTruncatesAndClamps,
SolidImageAndCanvas, GradientDividesEachPixel, ValueWritesReturnTheImage, OutOfRangeIsFatalOnlyForIndexing, LineMicroOperations,
ShiftByteSendsMsbFirst, DriverInitSequence, SendRowEventPositions and BadRowIsFatal. -/
theorem test_witness_live : s0.phase ≠ .halted := by decide
/-- The ranges in those: rows, columns, offsets, divisors. -/
theorem test_witness_ranges : (0 < 8 ∧ 7 < 8 ∧ 0 < 192 ∧ 191 < 192 : Prop) ∧ ((1 : Rat) ≠ 0) ∧
    ((-1 : Int) < 0 ∧ (7 : Int) < 8 ∧ (191 : Int) < 192) ∧ (0 < 72 ∧ 71 < 72 ∧ 72 ≤ 72 ∧ 191 < 192 : Prop) := by decide +kernel
theorem test_witness_StreamDecodeEncodeAgree :
    (wellFormed (.data 0xFE#8) = true ∧ encode (.data 0xFE#8) = some [0xFE#8]) ∧
    ((∀ i ∈ [Instr.sync, .data 0], wellFormed i = true) ∧ encodeAll [.sync, .data 0] = some [0xFF#8, 0]) := by decide
theorem test_witness_StepRunsReceivedOperation (stim : List Stim) :
    ((s0With [0xFF#8, 1] false false 0 stim).phase = .run ∧ (s0With [0xFF#8, 1] false false 0 stim).eff < 3 ∧
      decode (s0With [0xFF#8, 1] false false 0 stim).rxFifo = .ok (.sync, [1]) ∧
      (s0With [0xFF#8, 1] false false 0 stim).stim = stim) ∧
    State.eff { s0With [0] false false 0 stim with locks := [(.saver, [.changes])] } < 3 ∧
    decodeTableWord 8 0 = some (.data 0) := ⟨⟨rfl, show (0 : Nat) < 3 by decide, rfl, rfl⟩, show (2 : Nat) < 3 by decide, rfl⟩
theorem test_witness_CoarseBlockMove (f : List Byte) (d v : Bool) (n : Nat) :
    (State.reset.stim = [] ∧ State.reset.acts = [] ∧ State.reset.locks = [] ∧ State.reset.phase = .off) ∧
    ((s0With f d v n []).stim = [] ∧ (s0With f d v n []).acts = [] ∧ (s0With f d v n []).locks = [] ∧
      (s0With f d v n []).phase = .run ∧ (s0With f d v n []).rxFifo = f ∧ (s0With f d v n []).dispDue = d ∧
      (s0With f d v n []).saverDue = v ∧ (s0With f d v n []).noticePending = n) :=
  ⟨⟨rfl, rfl, rfl, rfl⟩, rfl, rfl, rfl, rfl, rfl, rfl, rfl, rfl⟩
theorem test_witness_EnvironmentMoves (m : EnvMove) (r : List Stim) :
    ((s0With [] false false 0 (.env m :: r)).phase = .run ∧ (s0With [] false false 0 (.env m :: r)).stim = .env m :: r ∧
      ∀ a ∈ (s0With [] false false 0 (.env m :: r)).acts, a.agent ≠ .disp ∧ a.agent ≠ .saver) ∧
    (∀ w, ∃ s : State, s.phase = .run ∧ s.stim = .env m :: r ∧ ∃ a ∈ s.acts, a.agent = w) ∧
    ({ State.reset with stim := .env m :: r } : State).phase ≠ .run ∧ EnvMove.dispDue ≠ .reset ∧
    ({ State.reset with phase := .init } : State).acts = [] :=
  ⟨⟨rfl, rfl, nofun⟩,
    fun w => ⟨{ s0With [] false false 0 (.env m :: r) with acts := [⟨w, Vector.replicate 8 Color.black, []⟩] }, rfl, rfl, _,
      List.mem_singleton.2 rfl, rfl⟩, nofun, nofun, rfl⟩
theorem test_witness_PreemptionKeepsTheContinuation (d : Bool) : ∃ s : State, ∃ a : Activation,
    s.phase = .run ∧ s.stim = [.tick] ∧ s.acts = [a] ∧ a.agent = .notice ∧ s.locks = [] ∧ s.rxFifo = [] ∧
    s.dispDue = d ∧ s.saverDue = !d :=
  ⟨{ s0With [] d (!d) 0 [.tick] with acts := [⟨.notice, Vector.replicate 8 Color.black, noticeMicros⟩] }, _,
    rfl, rfl, rfl, rfl, rfl, rfl, rfl, rfl⟩
theorem test_witness_SectionsKeepActorsOut : s0.phase = .run ∧ Shared.next ∈ [Shared.next] ∧
    Shared.pool ∈ [Shared.changes, .pool] ∧ Shared.changes ∈ [Shared.changes] := by decide
theorem test_witness_ActivationsByPrimitiveStepsAreAtomic (d v : Bool) (p n : Nat) :
    (∃ s : State, s.phase = .run ∧ s.acts = [] ∧ s.locks = [] ∧ s.rxFifo = [] ∧ s.dispDue = d ∧ s.saverDue = v ∧
      s.noticePending = p ∧ s.stim = List.replicate n Stim.tick ++ []) ∧
    ∃ s : State, s.phase = .off ∧ s.acts = [] ∧ s.stim = List.replicate n Stim.tick ++ [] :=
  ⟨⟨s0With [] d v p (List.replicate n Stim.tick ++ []), rfl, rfl, rfl, rfl, rfl, rfl, rfl, rfl⟩,
    { State.reset with stim := List.replicate n Stim.tick ++ [] }, rfl, rfl, rfl⟩
theorem test_witness_ReceptionCommutesWithLineSteps : ∃ (s t u : State) (a : Activation) (m : Micro),
    s.acts = [a] ∧ a.agent = .disp ∧ a.todo = [m] ∧ (∃ p ch k, m = .bit p ch k) ∧
    exec .sync s = .next t ∧ t.phase ≠ .halted ∧ exec (.data 1) s = .next u ∧ u.phase ≠ .halted :=
  ⟨{ s0 with acts := [⟨.disp, Vector.replicate 8 Color.black, [.bit 7 .b 7]⟩] }, _, _, _, _, rfl, rfl, rfl, ⟨7, .b, 7, rfl⟩,
    rfl, nofun, rfl, nofun⟩
theorem test_witness_HaltedHasNoStepButReset (stim : List Stim) : ({ s0 with phase := .halted, stim := stim } : State).phase =
    .halted ∧ ({ s0 with phase := .halted, stim := stim } : State).stim = stim ∧ Instr.sync ≠ .reset := ⟨rfl, rfl, nofun⟩
theorem test_witness_BootReachesRun : State.reset.phase = .off ∧ State.reset.held = [] := by decide
/-- StepKeepsPoolInvariant, StepKeepsCanonicalForms, StepKeepsFatalWithHalted, StepKeepsReceivedBytes: a byte is received in
the middle of a frame. -/
theorem test_witness_invariants : ∃ s t : State, PoolInv s ∧ MemInv s ∧ FreeRising s ∧ FatalInv s ∧ ReceivedInv s ∧
    ArenaFull s ∧ step s = .next t := by
  refine ⟨{ s0With [7] false false 0 [] with rxState := .filling 1 }, _, pool_s0, ?_, ?_, ?_, ?_, full_s0, rfl⟩
  · unfold MemInv; decide +kernel
  · unfold FreeRising; decide
  · unfold FatalInv; decide
  · intro c a hc ha k hk
    obtain rfl : (1 : Fin 192) = c := RxState.filling.inj hc
    obtain rfl : (1 : Slot) = a := Option.some.inj ha
    obtain rfl : k = 0 := Nat.lt_one_iff.1 hk
    exact ⟨0, by decide +kernel⟩
/-- StepKeepsGoodState, GoodRunsNeverHalt. -/
theorem test_witness_StepKeepsGoodState : GoodState s0 ∧ ∃ t, step s0 = .next t :=
  ⟨good_s0With [] false false 0 [] List.not_mem_nil, _, rfl⟩
theorem test_witness_FreeCountFollowsPending :
    (PoolInv s0 ∧ s0.held = [] ∧ s0.asm.isSome = true ∧ s0.cur.isSome = true ∧ s0.next = none) ∧
    (PoolInv s1 ∧ s1.held = [] ∧ s1.asm.isSome = true ∧ s1.cur.isSome = true ∧ s1.next.isSome = true) :=
  ⟨⟨pool_s0, rfl, rfl, rfl, rfl⟩, pool_s1, rfl, rfl, rfl, rfl⟩
theorem test_witness_CurrentImageIsNeverWritten : ∃ s t : State, GoodState s ∧ s.phase = .run ∧ s.cur = some 0 ∧
    step s = .next t ∧ t.phase = .run ∧ t.cur = some 0 ∧ inSlot 0 191 :=
  ⟨_, _, good_s0With [0xFF#8] false false 0 [] List.not_mem_nil, rfl, rfl, rfl, rfl, rfl, by unfold inSlot; decide⟩
/-- A curve that never falls, and one that wrapping breaks (V3: 127 gives 254, 128 gives 0). -/
theorem test_witness_SaturationKeepsMonotoneCurves : MonotoneBytes lutB ∧
    (127#8 : Byte).toNat ≤ (128#8 : Byte).toNat ∧ (lutB 127).toNat < 128 ∧ 128 ≤ (lutB 128).toNat ∧
    (lutB 128).toNat - 128 < (lutB 127).toNat := ⟨fun _ _ h => h, by decide⟩
theorem test_witness_ImageReadsReturnTheBytes : owns .disp 0 s0 = true ∧ owns .rx 1 s0 = true ∧
    slotBytes s0 0 = some (List.replicate 192 0) ∧ slotBytes s0 1 = some (List.replicate 192 0) := by decide +kernel
theorem test_witness_SlotWritesStoreOnlyTheirBytes : s2.phase ≠ .halted ∧ owns .saver 2 s2 = true := by decide +kernel
/-- A foreign slot; an owned one of which the last byte read by IMG_INDEX_RD (7,7), IMG_ROW 7 and IMG_BYTE_RD 191 is not listed. -/
theorem test_witness_SlotAccessNeedsOwnershipAndContents : owns .rx 0 s0 = false ∧ ∃ s : State, s.phase ≠ .halted ∧
    owns .saver 0 s = true ∧ slotAddr 0 (3 * (8 * 7 + 7) + 2) = slotAddr 0 (24 * 7 + 23) ∧
    slotAddr 0 (24 * 7 + 23) = slotAddr 0 191 ∧ Memory.read s.mem (slotAddr 0 191) = none :=
  ⟨by decide, { s0 with mem := Memory.cells 0 (List.replicate 191 0), held := [(.saver, 0)] }, by decide +kernel⟩
theorem test_witness_AllocationTakesAFreeSlot : s0.free ≠ [] ∧ s1.free = [] := by decide
theorem test_witness_FreeingReturnsTheHandle : (2 ∉ s2.free ∧ (Agent.saver, 2) ∈ s2.held) ∧
    (1 ∉ s0.free ∧ (Agent.rx, 1) ∉ s0.held ∧ s0.asm = some 1) ∧ (0 ∉ s0.free ∧ (Agent.disp, 0) ∉ s0.held ∧ s0.cur = some 0) ∧
    2 ∈ s0.free ∧ owns .notice 0 s0 = false := by decide
theorem test_witness_NextCellIsAMailbox : (2 ∉ s2.free ∧ (Agent.saver, 2) ∈ s2.held ∧ s2.next = none) ∧
    (1 ∉ s0.free ∧ (Agent.rx, 1) ∉ s0.held ∧ s0.asm = some 1 ∧ s0.next = none) ∧
    (1 ∉ s1.free ∧ 2 ∉ s1.free ∧ (Agent.rx, 1) ∉ s1.held ∧ s1.asm = some 1 ∧ s1.next = some 2) ∧
    (0 ∉ s0.free ∧ (Agent.disp, 0) ∉ s0.held ∧ s0.cur = some 0 ∧ s0.next = none) ∧
    (0 ∉ s1.free ∧ (Agent.disp, 0) ∉ s1.held ∧ s1.cur = some 0 ∧ s1.next = some 2) ∧
    (2 ∈ s0.free ∧ owns .notice 0 s0 = false) ∧
    ∃ s : State, s.phase ≠ .halted ∧ 1 ∉ s.free ∧ 2 ∉ s.free ∧ (Agent.saver, 1) ∈ s.held ∧ s.next = some 2 :=
  ⟨by decide, by decide, by decide, by decide, by decide, by decide, { s1 with asm := none, held := [(.saver, 1)] }, by decide⟩
/-- The lines before SEND_ROW of row 0 with row 7 lit, and with no row lit. -/
theorem test_witness_AtMostOneRowAtEveryInstant :
    (∀ i : Fin 8, ({ s0.lines with rows := (Vector.replicate 8 false).set 7 true } : Lines).rows[i] = true → i = 0 + 7) ∧
    (∀ i : Fin 8, s0.lines.rows[i] = true → i = 3 + 7) ∧ (217 ≤ 217 ∧ 579 < 580 : Prop) := by decide
theorem test_witness_RowShiftsItsFrame : s0.lines.sck = Config.sckIdle ∧ s0.lines.lat = Config.latIdle := by decide
theorem test_witness_DeframerStoresAtTheCursor : (0xFE#8 : Byte) ≠ 0xFF#8 ∧ s0.rxState = .awaitingSync ∧ s0.asm = some 1 ∧
    (190 : Fin 192).val + 1 = (191 : Fin 192).val ∧ (0 : Fin 192).val + 1 = (1 : Fin 192).val ∧
    ({ s0 with rxState := .filling 190 } : State).rxState = .filling 190 := by decide
theorem test_witness_LastByteCompletesTheFrame : (0 : Byte) ≠ 0xFF#8 ∧ s0.asm = some 1 ∧ s0.held = [] ∧ (2 : Slot) ≠ 1 ∧
    OnlySlot s0 2 ∧ OnlySlot s1 2 ∧ ({ s0 with rxState := .filling 191 } : State).rxState = .filling 191 := by
  refine ⟨by decide, rfl, rfl, by decide, .inr ⟨rfl, rfl⟩, .inl ⟨rfl, rfl⟩, rfl⟩
theorem test_witness_ReceiveByteRunsTheOperation (b : Byte) : (s0With [b] false false 0 []).phase = .run ∧
    (s0With [b] false false 0 []).rxFifo = [b] ∧ (s0With [b] false false 0 []).rxState = .awaitingSync := ⟨rfl, rfl, rfl⟩
theorem test_witness_FrameIsPublishedWhole : ∃ s : State, GoodState s ∧ s.phase = .run ∧ s.stim = [] ∧ s.asm = some 1 ∧
    s.rxFifo = 0xFF#8 :: (List.replicate 192 0xFE#8 ++ [0xFF#8]) ∧ (List.replicate 192 0xFE#8).length = 192 ∧
    ∀ b ∈ List.replicate 192 0xFE#8, b ≠ 0xFF#8 := by
  refine ⟨_, good_s0With _ false false 0 [] List.not_mem_nil, rfl, rfl, rfl, rfl, List.length_replicate, fun b h => ?_⟩
  rw [List.eq_of_mem_replicate h]; decide
/-- The empty partial frame and the longest one. -/
theorem test_witness_PartialFrameSurfacesNothing : (∃ s : State, GoodState s ∧ s.phase = .run ∧ s.stim = [] ∧
      s.rxFifo = 0xFF#8 :: (List.replicate 191 0 ++ 0xFF#8 :: [])) ∧
    (List.replicate 191 (0 : Byte)).length < 192 ∧ (∀ b ∈ List.replicate 191 (0 : Byte), b ≠ 0xFF#8) ∧
    ([] : List Byte).length < 192 := by
  refine ⟨⟨_, good_s0With _ false false 0 [] List.not_mem_nil, rfl, rfl, rfl⟩, by decide +kernel, fun b h => ?_, by decide⟩
  rw [List.eq_of_mem_replicate h]; decide
theorem test_witness_NoticeIncrementsTheCounter : (s0With [] false false 1 []).phase = .run ∧
    (s0With [] false false 1 []).noticePending = 0 + 1 ∧
    ({ s0 with changes := 0xFFFFFFFF#32 } : State).changes = 0xFFFFFFFF#32 := ⟨rfl, rfl, rfl⟩
theorem test_witness_DisplayTickSendsARow : (s0With [] true false 0 []).phase = .run ∧ (s0With [] true false 0 []).dispDue = true ∧
    s0.cur = some 0 ∧ s0.row ≠ 7 ∧ slotBytes s0 0 = some (List.replicate 192 0) := by decide +kernel
/-- With nothing pending, and with an image pending. -/
theorem test_witness_DisplayTickWrapsAndSwaps : ({ s0With [] true false 0 [] with row := 7 } : State).row = 7 ∧
    0 ∉ s0.free ∧ s0.next = none ∧ 0 ∉ s1.free ∧ s1.next = some 2 ∧ s1.cur = some 0 ∧
    slotBytes s1 0 = some (List.replicate 192 0) := by decide +kernel
theorem test_witness_FrameSwapAdoptsThePendingImage : s0.cur = some 0 ∧ 0 ∉ s0.free ∧ s0.next = none ∧
    s1.cur = some 0 ∧ 0 ∉ s1.free ∧ s1.next = some 2 := by decide
theorem test_witness_PendingImageIsAdoptedWithinAFrame : ∃ s : State, GoodState s ∧ s.phase = .run ∧ s.next = some 2 ∧
    s.rxFifo = [] ∧ s.dispDue = false ∧ s.saverDue = false ∧ s.noticePending = 0 ∧
    s.stim = script (List.replicate (8 - s.row.val) [.dispDue]) :=
  ⟨_, good_s1With [] false false 0 (script (List.replicate 8 [.dispDue])) (by decide), rfl, rfl, rfl, rfl, rfl, rfl, rfl⟩
theorem test_witness_SaverInstallsOrStandsBack : (s0With [] false true 0 []).phase = .run ∧
    (s0With [] false true 0 []).saverDue = true ∧ s0.changes = s0.lastSeen ∧
    (OnlySlot (s0With [] false true 0 []) 2 ∧ OnlySlot (s1With [] false true 0 []) 2) ∧
    ({ s0 with changes := 5 } : State).changes ≠ ({ s0 with changes := 5 } : State).lastSeen :=
  ⟨rfl, rfl, rfl, ⟨.inr ⟨rfl, rfl⟩, .inl ⟨rfl, rfl⟩⟩, by decide⟩
theorem test_witness_OffsetCyclesIn151Ticks : ((-120 : Int) ≤ -120 ∧ (-120 : Int) ≤ 30 ∧ (30 : Int) ≤ 30) ∧
    (0 < 1 ∧ 150 < 151 : Prop) := by decide
theorem test_witness_SaverCanDiscardAnUnnoticedFrame : ∃ s : State, GoodState s ∧ s.phase = .run ∧ s.stim = [] ∧ s.rxFifo = [] ∧
    s.dispDue = false ∧ s.saverDue = true ∧ s.next = some 2 ∧ 0 < s.noticePending ∧ s.changes = s.lastSeen :=
  ⟨_, good_s1With [] false true 1 [] List.not_mem_nil, rfl, rfl, rfl, rfl, rfl, rfl, Nat.one_pos, rfl⟩
theorem test_witness_LockRaisesAndRestores : s0.phase ≠ .halted ∧ s0.locks = [] ∧
    ({ s0 with locks := [(.rx, [.next])] } : State).locks = (.rx, [.next]) :: [] ∧ Agent.rx ≠ .disp := by decide
theorem test_witness_ModelChoicesAtTheEdges : s0.phase ≠ .halted ∧ s0.rxFifo = [] ∧ s0.dispDue = false ∧ s0.saverDue = false ∧
    s0.noticePending = 0 ∧ s0.phase ≠ .off ∧ State.reset.phase ≠ .run ∧ (0 : Byte) ≠ 0xFF#8 ∧
    (∃ s : State, s.phase ≠ .halted ∧ s.rxState = .filling 0 ∧ s.asm = none) ∧
    (∃ s : State, s.phase = .run ∧ s.dispDue = true ∧ s.cur = none) :=
  ⟨nofun, rfl, rfl, rfl, rfl, nofun, nofun, by decide, ⟨{ s0 with rxState := .filling 0, asm := none }, nofun, rfl, rfl⟩,
    { s0 with dispDue := true, cur := none }, rfl, rfl, rfl⟩

/-- An ENV that delivers a byte at every other instant, for ever. -/
def endlessEnv (n : Nat) : Option EnvMove := if n % 2 = 0 then some (.deliver 0) else none

/-- Both ticks are due and a completion is pending; the block is busy with bytes, which are dropped. -/
def endlessRun (n : Nat) : State := if n % 2 = 0 then s0With [] true true 1 [] else s0With [0] true true 1 []

/-- The run is endless and fair, and a byte is to be consumed at every other instant. -/
theorem test_witness_FairRunsConsumeBytesAndMayStarveTheRest : EndlessRun endlessEnv endlessRun ∧ Fair endlessEnv endlessRun ∧
    GoodState (endlessRun 0) ∧ (endlessRun 0).phase = .run ∧ (∀ n, endlessEnv n ≠ some .reset) ∧
    (endlessRun 1).rxFifo = 0 :: [] := by
  have odd : ∀ n, (2 * n + 1) % 2 = 1 := fun n => by omega
  refine ⟨fun n => ?_, ⟨fun n _ => ⟨2 * n + 1, by omega, by simp [endlessEnv, odd]⟩, fun n => ⟨n, le_rfl, ?_⟩,
    fun n => ⟨n, le_rfl, ?_⟩⟩, good_s0With [] true true 1 [] List.not_mem_nil, rfl, fun n => ?_, rfl⟩
  · rcases Nat.mod_two_eq_zero_or_one n with h | h
    · have h' : (n + 1) % 2 = 1 := by omega
      simp only [endlessEnv, endlessRun, h, h', if_true]
      rfl
    · have h' : (n + 1) % 2 = 0 := by omega
      simp only [endlessEnv, endlessRun, h, h', if_true]
      rfl
  · unfold endlessRun; split <;> rfl
  · unfold endlessRun; split <;> rfl
  · unfold endlessEnv; split <;> simp

end Sys2Proof.Machine.Tests
end

section
/-! PROOFS of the statements about the encoding: the byte patterns of R91 and the fixed sequence of DRV_INIT (R96, R180). -/

namespace Sys2Proof

/-! ## Byte patterns (R91) -/

/-- A mask that clears the low `k` bits leaves the multiple of `2^k` below the byte. -/
theorem toNat_and_allOnes_shiftLeft (b : Byte) (k : Nat) :
    (b &&& BitVec.allOnes 8 <<< k).toNat = b.toNat / 2 ^ k * 2 ^ k := by
  have hle : b.toNat / 2 ^ k * 2 ^ k < 2 ^ 8 := (Nat.div_mul_le_self _ _).trans_lt b.isLt
  rw [← BitVec.shiftLeft_ushiftRight, BitVec.toNat_shiftLeft, BitVec.toNat_ushiftRight, Nat.shiftLeft_eq,
    Nat.shiftRight_eq_div_pow, Nat.mod_eq_of_lt hle]

/-- A pattern that fixes all but the low `k` bits holds of the bytes of one interval of length `2^k`. -/
theorem BytePattern.holds_highMask_iff (v b : Byte) (k : Nat) :
    (BytePattern.mk v (BitVec.allOnes 8 <<< k)).holds b = true ↔ b.toNat / 2 ^ k * 2 ^ k = v.toNat := by
  rw [BytePattern.holds, beq_iff_eq, ← BitVec.toNat_inj, toNat_and_allOnes_shiftLeft]

/-- The SYNC pattern has no operand bit: it holds of 0xFF alone. -/
theorem syncPattern_holds_iff (b : Byte) : syncPattern.holds b = true ↔ b = 0xFF#8 := by
  have hm : b &&& 0xFF#8 = b := BitVec.and_allOnes
  simp [syncPattern, BytePattern.holds, hm]

/-- Row `n` of DATA (R91): `n` leading ones, a zero, and `7 - n` operand bits. -/
def dataRow (n : Nat) : BytePattern := ⟨BitVec.allOnes 8 <<< (8 - n), BitVec.allOnes 8 <<< (7 - n)⟩

theorem dataPatterns_eq_map_dataRow : dataPatterns = (List.range 8).map dataRow := by decide

/-- The rows are intervals that follow one another: 0..127, 128..191, 192..223, and so on up to 254..254. -/
theorem dataRow_holds_iff (b : Byte) {n : Nat} (hn : n < 8) :
    (dataRow n).holds b = true ↔ 256 - 2 ^ (8 - n) ≤ b.toNat ∧ b.toNat < 256 - 2 ^ (7 - n) := by
  have hv : (BitVec.allOnes 8 <<< (8 - n)).toNat = 256 - 2 ^ (8 - n) := by interval_cases n <;> rfl
  rw [dataRow, BytePattern.holds_highMask_iff, hv]
  interval_cases n <;> omega

/-- The first `m` rows cut the bytes below 256 - 2^(8-m) without overlap, and no other byte is in one of them. -/
theorem countP_dataRow_range (b : Byte) {m : Nat} (hm : m ≤ 8) :
    (List.range m).countP (fun n => (dataRow n).holds b) = if b.toNat < 256 - 2 ^ (8 - m) then 1 else 0 := by
  induction m with
  | zero => simp
  | succ m ih =>
    have hrow := dataRow_holds_iff b hm
    have hpow : 2 ^ (8 - m) = 2 * 2 ^ (7 - m) := by rw [show 8 - m = 7 - m + 1 by omega, pow_succ']
    rw [List.range_succ, List.countP_append, ih (by omega), List.countP_singleton, show 8 - (m + 1) = 7 - m by omega]
    simp only [hrow, hpow]
    split_ifs <;> omega

/-- All eight rows together cut 0x00..0xFE. -/
theorem length_filter_dataPatterns (b : Byte) :
    (dataPatterns.filter fun p => p.holds b).length = if b = 0xFF#8 then 0 else 1 := by
  have hff : b = 0xFF#8 ↔ b.toNat = 255 := BitVec.toNat_inj.symm
  have hrows := countP_dataRow_range b le_rfl
  rw [dataPatterns_eq_map_dataRow, ← List.countP_eq_length_filter, List.countP_map]
  simp only [Function.comp_def, hrows, hff]
  split_ifs <;> omega

/-- SYNC is tested first; every other byte is DATA with the whole byte as operand. -/
theorem decodeByte_eq (b : Byte) : decodeByte b = if b = 0xFF#8 then .sync else .data b := by
  simp only [decodeByte, syncPattern_holds_iff]

/-- Settles O1: SYNC has no operand bit, and the DATA rows are intervals that cut the other bytes. -/
theorem everyByteIsSyncOrData : Obligations.EveryByteIsSyncOrData := fun b =>
  ⟨syncPattern_holds_iff b, length_filter_dataPatterns b, decodeByte_eq b⟩

end Sys2Proof

namespace Sys2Proof.Machine

/-! ## Clock and latch pulses -/

theorem sckPulses_succ (n : Nat) : sckPulses (n + 1) = sckPulse ++ sckPulses n := rfl

theorem sckPulses_eq_flatten (n : Nat) : sckPulses n = (List.replicate n sckPulse).flatten := by
  induction n with
  | zero => rfl
  | succ n ih => rw [sckPulses_succ, ih, List.replicate_succ, List.flatten_cons]

@[simp] theorem length_sckPulses (n : Nat) : (sckPulses n).length = 2 * n := by
  simp [sckPulses_eq_flatten, sckPulse, Nat.mul_comm]

/-- A clock pulse leaves SCK idle and every other line as it was (R177). -/
theorem afterAll_sckPulse (ls : Lines) : Lines.afterAll ls sckPulse = { ls with sck := Config.sckIdle } := rfl

/-- One clock pulse or more leave SCK idle, as one does (R177). -/
theorem afterAll_sckPulses_succ (ls : Lines) (n : Nat) :
    Lines.afterAll ls (sckPulses (n + 1)) = { ls with sck := Config.sckIdle } := by
  induction n generalizing ls with
  | zero => rfl
  | succ n ih => rw [sckPulses_succ, afterAll_append, ih, afterAll_sckPulse]

/-- Clock pulses write no line but SCK. -/
theorem eq_sck_of_mem_sckPulses {n : Nat} {l : Line} {v : Level} (h : LineEvent.set l v ∈ sckPulses n) : l = .sck := by
  rw [sckPulses_eq_flatten, List.mem_flatten] at h
  obtain ⟨p, hp, h⟩ := h
  rw [List.eq_of_mem_replicate hp] at h
  simp only [sckPulse, List.mem_cons, LineEvent.set.injEq, List.not_mem_nil, or_false] at h
  exact h.elim And.left And.left

/-- A clock pulse shifts one bit, the level of SDA (R98). -/
theorem shiftedBits_sckPulse_append (sda : Level) (evs : List LineEvent) :
    shiftedBits sda (sckPulse ++ evs) = sda :: shiftedBits sda evs := rfl

/-- While SDA is held, every clock pulse shifts its level (R96, R98). -/
theorem shiftedBits_sckPulses (sda : Level) (n : Nat) : shiftedBits sda (sckPulses n) = List.replicate n sda := by
  induction n with
  | zero => rfl
  | succ n ih => rw [sckPulses_succ, shiftedBits_sckPulse_append, ih, List.replicate_succ]

/-! ## DRV_INIT (R96, R180) -/

/-- DRV_INIT before its latch pulse: the reset of the panel, SB low, and 144 clock pulses under SDA high. -/
def bank0Events : List LineEvent :=
  [.set .rst false, .delay Config.rstDelayMs, .set .rst true, .set .sb false, .set .sda true] ++ sckPulses Config.bank0Pulses

/-- DRV_INIT is that, the latch pulse that commits the frame, and SB high. -/
theorem drvInitEvents_eq : drvInitEvents = bank0Events ++ (latPulse ++ [.set .sb true]) := by
  simp only [drvInitEvents, bank0Events, List.append_assoc]

/-- The lines while the frame waits for its latch pulse: "`SB` is 0 for the whole frame" (R96). -/
theorem afterAll_bank0Events (ls : Lines) :
    Lines.afterAll ls bank0Events = { ls with rst := true, sb := false, sda := true, sck := Config.sckIdle } := by
  rw [bank0Events, afterAll_append]
  exact afterAll_sckPulses_succ _ 143

theorem shiftedBits_bank0Events (sda : Level) : shiftedBits sda bank0Events = List.replicate 144 true :=
  shiftedBits_sckPulses true 144

theorem set_lat_notMem_bank0Events (v : Level) : LineEvent.set .lat v ∉ bank0Events := by
  have hp : LineEvent.set .lat v ∉ sckPulses Config.bank0Pulses := fun h => nomatch eq_sck_of_mem_sckPulses h
  simp [bank0Events, hp]

@[simp] theorem length_drvInitEvents : drvInitEvents.length = 296 := by
  simp [drvInitEvents, latPulse, Config.bank0Pulses]

theorem afterAll_drvInitEvents (ls : Lines) :
    Lines.afterAll ls drvInitEvents =
      { ls with rst := true, sb := true, sda := true, sck := Config.sckIdle, lat := Config.latIdle } := by
  rw [drvInitEvents_eq, afterAll_append, afterAll_bank0Events]
  rfl

/-- The latch pulse and the return of SB shift nothing more. -/
theorem shiftedBits_drvInitEvents (ls : Lines) : shiftedBits ls.sda drvInitEvents = List.replicate 144 true := by
  rw [drvInitEvents_eq, shiftedBits_append, shiftedBits_bank0Events]
  exact List.append_nil _

/-- No LAT is written before the latch pulse, which commits all that was shifted. -/
theorem committedFrames_drvInitEvents (ls : Lines) :
    committedFrames ls.sda [] drvInitEvents = [List.replicate 144 true] := by
  rw [drvInitEvents_eq, committedFrames_no_lat ls _ _ _ set_lat_notMem_bank0Events, shiftedBits_bank0Events]
  rfl

/-- DRV_INIT performs its events, in every phase but HALTED. -/
theorem exec_drvInit {s : State} (h : s.phase ≠ .halted) : exec .drvInit s = .next (s.emit drvInitEvents) :=
  live_of_ne h

/-- Settles O39: up to its latch pulse DRV_INIT shifts 144 ones and writes no LAT; the pulse commits them. -/
theorem driverInitSequence : Obligations.DriverInitSequence := by
  intro s h
  refine ⟨drvInitEvents, ?_, ?_, length_drvInitEvents, shiftedBits_drvInitEvents s.lines,
    committedFrames_drvInitEvents s.lines⟩
  · rw [exec_drvInit h, State.emit, afterAll_drvInitEvents]
  · rw [drvInitEvents, sckPulses_eq_flatten, List.append_assoc _ latPulse]
    rfl

end Sys2Proof.Machine
end

section
/-! PROOFS of the statements about image operations (spec/41_image.md). -/

namespace Sys2Proof.Machine

/-! ## The bytes of an image given by its pixels (R61) -/

/-- The byte view of an image is its pixels one after another, row by row: 64 pixels of three bytes each. -/
theorem toList_imageOfPixels (f : Nat → Nat → Color) :
    (imageOfPixels f).toList = (List.ofFn fun p : Fin 64 => colorBytes (f (p.val / 8) (p.val % 8))).flatten := by
  rw [imageOfPixels, Vector.toList_ofFn, List.ofFn_mul' (m := 3) (n := 64)]
  refine congrArg (fun pixel => (List.ofFn pixel).flatten) (funext fun p => ?_)
  have hrow (j : Fin 3) : (3 * p.val + j.val) / 24 = p.val / 8 := by omega
  have hcol (j : Fin 3) : (3 * p.val + j.val) % 24 / 3 = p.val % 8 := by omega
  have hchan (j : Fin 3) : (3 * p.val + j.val) % 3 = j.val := by omega
  simp only [hrow, hcol, hchan]
  rfl

/-! ## IMG_SOLID and CANVAS_SIZE (R140, R147) -/

/-- All 64 pixels are the one colour. -/
theorem toList_solidImage (c : Color) : (solidImage c).toList = (List.replicate 64 (colorBytes c)).flatten := by
  rw [solidImage, toList_imageOfPixels, List.ofFn_const]

/-- IMG_SOLID returns the solid image, in every phase but HALTED. -/
theorem exec_imgSolid {s : State} (h : s.phase ≠ .halted) (c : Color) :
    exec (.imgSolid c) s = .next (s.withRet (.image (solidImage c))) := live_of_ne h

/-- CANVAS_SIZE returns the size of the matrix, in every phase but HALTED. -/
theorem exec_canvasSize {s : State} (h : s.phase ≠ .halted) :
    exec .canvasSize s = .next (s.withRet (.size Config.cols Config.rows)) := live_of_ne h

/-- Settles O27: every pixel of the solid image is the colour, so its bytes are the colour's three, 64 times. -/
theorem solidImageAndCanvas : Obligations.SolidImageAndCanvas := fun _ c h =>
  ⟨⟨solidImage c, exec_imgSolid h c, toList_solidImage c⟩, exec_canvasSize h⟩

end Sys2Proof.Machine
end

section
/-! PROOFS of the statements about the matrix driver (spec/43_matrix_driver.md). -/

namespace Sys2Proof.Machine

/-! ## SHIFT_BYTE (R181) -/

/-- Sending bit `k` of a byte: "`SDA` is written for every bit", then the clock is pulsed (R181). -/
def bitEvents (v : Byte) (k : Nat) : List LineEvent := .set .sda (v.getLsbD k) :: sckPulse

theorem byteEvents_eq_flatMap (v : Byte) : byteEvents v = msbFirst.flatMap (bitEvents v) := rfl

/-- A bit sent stays on SDA, and the pulse leaves SCK idle (R176, R177). -/
theorem afterAll_bitEvents (ls : Lines) (v : Byte) (k : Nat) :
    Lines.afterAll ls (bitEvents v k) = { ls with sda := v.getLsbD k, sck := Config.sckIdle } := rfl

/-- After any sequence of bits the lines stand as the last one alone leaves them. -/
theorem afterAll_flatMap_bitEvents_concat (ls : Lines) (v : Byte) (ks : List Nat) (k : Nat) :
    Lines.afterAll ls ((ks ++ [k]).flatMap (bitEvents v)) =
      { ls with sda := v.getLsbD k, sck := Config.sckIdle } := by
  induction ks generalizing ls with
  | nil => rw [List.nil_append, List.flatMap_singleton, afterAll_bitEvents]
  | cons j ks ih => rw [List.cons_append, List.flatMap_cons, afterAll_append, ih, afterAll_bitEvents]

/-- Bit 0 is the last one sent, so it is what SHIFT_BYTE leaves on SDA. -/
theorem afterAll_byteEvents (ls : Lines) (v : Byte) :
    Lines.afterAll ls (byteEvents v) = { ls with sda := v.getLsbD 0, sck := Config.sckIdle } := by
  rw [byteEvents_eq_flatMap]
  exact afterAll_flatMap_bitEvents_concat ls v [7, 6, 5, 4, 3, 2, 1] 0

/-- SHIFT_BYTE performs its events, in every phase but HALTED. -/
theorem exec_shiftByte {s : State} (h : s.phase ≠ .halted) (v : Byte) :
    exec (.shiftByte v) s = .next (s.emit (byteEvents v)) := live_of_ne h

/-- Settles O38: the events are those of the bits 7 down to 0, and the last bit decides the lines. -/
theorem shiftByteSendsMsbFirst : Obligations.ShiftByteSendsMsbFirst := by
  intro s v h
  rw [exec_shiftByte h, State.emit, afterAll_byteEvents, byteEvents_eq_flatMap]
  rfl

end Sys2Proof.Machine
end

section
/-! PROOFS of the statements about the deframer (spec/44_deframer.md). -/

namespace Sys2Proof.Machine

/-! ## One byte of the arena -/

/-- A byte just written is the byte read. -/
theorem Memory.read_write_byte_same (m : Memory) (a : Nat) (b : Byte) :
    Memory.read (Memory.write m a [b]) a = some b :=
  Memory.read_write_inside m a [b] 0 Nat.one_pos

/-- Writing one byte leaves every other one. -/
theorem Memory.read_write_byte_ne (m : Memory) {a x : Nat} (b : Byte) (h : x ≠ a) :
    Memory.read (Memory.write m a [b]) x = Memory.read m x :=
  Memory.read_write_outside m a [b] x (Nat.lt_or_gt_of_ne h)

/-- Within the bounds, the owner's write is done (R68). -/
theorem memWrite_of_owns {who : Agent} {h : Slot} {k : Nat} {bs : List Byte} {s : State}
    (hk : k + bs.length ≤ 192) (ho : owns who h s = true) :
    memWrite who h k bs s = .ok () { s with mem := Memory.write s.mem (slotAddr h k) bs } := by
  obtain ⟨hout, _⟩ | ⟨_, hnot, _⟩ | ⟨_, _, hok⟩ := memWrite_cases who h k bs s
  · exact absurd hk (Nat.not_le_of_lt hout)
  · exact nomatch ho.symm.trans hnot
  · exact hok

/-- RX owns its assembly buffer (R24). -/
theorem owns_rx_of_asm {a : Slot} {s : State} (ha : s.asm = some a) : owns .rx a s = true :=
  (owns_iff .rx a s).mpr (.inr (.inl ⟨rfl, ha⟩))

/-! ## SYNC and DATA (R201, R202, R203) -/

/-- SYNC resets the cursor and nothing else, in every phase but HALTED (R201). -/
theorem exec_sync {s : State} (h : s.phase ≠ .halted) : exec .sync s = .next { s with rxState := .filling 0 } :=
  live_of_ne h

theorem payloadOk_iff (d : Byte) : payloadOk d = true ↔ d ≠ 0xFF#8 := bne_iff_ne

/-- DATA of a payload byte is `dataByte`, in every phase but HALTED. -/
theorem exec_data {s : State} {d : Byte} (h : s.phase ≠ .halted) (hd : d ≠ 0xFF#8) :
    exec (.data d) s = (dataByte d s).outcome :=
  (live_of_ne h).trans (if_pos ((payloadOk_iff d).mpr hd))

/-- Awaiting a sentinel, a byte is dropped (R202). -/
theorem dataByte_awaitingSync {s : State} (d : Byte) (hr : s.rxState = .awaitingSync) : dataByte d s = .ok () s := by
  rw [dataByte, hr]

/-- While filling, a byte is stored at the cursor; then the cursor advances, or at offset 191 the frame is complete (R203,
R204). -/
theorem dataByte_filling {s : State} {a : Slot} {c : Fin 192} (d : Byte) (hr : s.rxState = .filling c)
    (ha : s.asm = some a) :
    dataByte d s =
      if h : c.val < 191 then
        .ok () { s with
          mem := Memory.write s.mem (slotAddr a c.val) [d], rxState := .filling ⟨c.val + 1, Nat.add_lt_add_right h 1⟩ }
      else completeFrame { s with mem := Memory.write s.mem (slotAddr a c.val) [d] } := by
  have hw := memWrite_of_owns (bs := [d]) c.isLt (owns_rx_of_asm ha)
  simp only [dataByte, hr, ha, hw, Res.bind_ok]

/-- Below offset 191 the byte is stored and the cursor advances (R203). -/
theorem exec_data_filling {s : State} {d : Byte} {a : Slot} {c c' : Fin 192} (h : s.phase ≠ .halted) (hd : d ≠ 0xFF#8)
    (hr : s.rxState = .filling c) (hc : c'.val = c.val + 1) (ha : s.asm = some a) :
    exec (.data d) s =
      .next { s with mem := Memory.write s.mem (slotAddr a c.val) [d], rxState := .filling c' } := by
  have hlt : c.val < 191 := by have := c'.isLt; omega
  obtain rfl : c' = ⟨c.val + 1, Nat.add_lt_add_right hlt 1⟩ := Fin.ext hc
  rw [exec_data h hd, dataByte_filling d hr ha, dif_pos hlt, Res.outcome_ok]

/-- Settles O45: SYNC resets the cursor; DATA is dropped, or is the one byte written at the cursor. -/
theorem deframerStoresAtTheCursor : Obligations.DeframerStoresAtTheCursor := by
  intro s d h hd
  refine ⟨exec_sync h, fun hr => ?_, fun a c c' hr hc ha => ?_⟩
  · rw [exec_data h hd, dataByte_awaitingSync d hr, Res.outcome_ok]
  · exact ⟨Memory.write s.mem (slotAddr a c.val) [d], exec_data_filling h hd hr hc ha,
      Memory.read_write_byte_same _ _ d, fun _ hx => Memory.read_write_byte_ne _ d hx⟩

end Sys2Proof.Machine
end

section
/-! PROOFS of the statements about the screensaver (spec/46_screensaver.md). -/

namespace Sys2Proof.Machine

/-! ## Sequences -/

theorem Res.bind_assoc {α β γ : Type} (m : Res α) (k : α → State → Res β) (l : β → State → Res γ) :
    (m.bind k).bind l = m.bind fun a s => (k a s).bind l := by
  cases m <;> rfl

/-! ## The bytes of one slot -/

/-- An image written into a slot is the image read from it. -/
theorem Memory.readBlock_write_image (m : Memory) (h : Slot) (img : Image) :
    Memory.readBlock (Memory.write m (slotAddr h 0) img.toList) (slotAddr h 0) 192 = some img.toList := by
  simpa using Memory.readBlock_write m (slotAddr h 0) img.toList

/-- An image written into a slot leaves every byte outside that slot. -/
theorem Memory.read_write_image_of_not_inSlot (m : Memory) {h : Slot} {x : Nat} (img : Image) (hx : ¬ inSlot h x) :
    Memory.read (Memory.write m (slotAddr h 0) img.toList) x = Memory.read m x := by
  refine Memory.read_write_outside m _ _ x ?_
  rw [inSlot] at hx
  rw [Vector.length_toList, slotAddr]
  omega

/-! ## Freeing a handle just taken, allocating the only free slot (R161, R162) -/

/-- A handle that was taken into a local variable and is freed leaves it again. -/
theorem poolFree_hold {who : Agent} {h : Slot} {s : State} (hf : h ∉ s.free) :
    poolFree who h (s.hold who h) = .ok () { s with free := insertFree h s.free } := by
  have howns : owns who h (s.hold who h) = true := (owns_iff ..).mpr (.inl List.mem_cons_self)
  have hrelease : (s.hold who h).release who h = s := by
    simp [State.release, State.hold, State.unhold]
  simp [poolFree, howns, hrelease, hf]

/-- With one slot free, POOL_ALLOC makes no choice: it takes that slot. -/
theorem poolAlloc_of_free_singleton {who : Agent} {init : Image} {h : Slot} {s : State} (hf : s.free = [h]) :
    poolAlloc who init s =
      .ok h (State.hold who h { s with free := [], mem := Memory.write s.mem (slotAddr h 0) init.toList }) := by
  have hchoose : chooseFree s = some (h, s.draws) := by rw [chooseFree, hf]
  simp [poolAlloc, hchoose, hf, State.hold]

/-! ## SAVER_TICK (R235, R236, R237) -/

/-- Once a pending handle is freed, the only slot is the only free one and nothing is pending (R236). -/
theorem nextTake_freeTaken_of_onlySlot {h : Slot} {s : State} (ho : OnlySlot s h) :
    (nextTake .saver s).bind freeTaken = .ok () { s with next := none, free := [h] } := by
  cases s
  simp only [OnlySlot] at ho
  obtain ⟨rfl, rfl⟩ | ⟨rfl, rfl⟩ := ho
  · exact poolFree_hold List.not_mem_nil
  · rfl

/-- The idle branch installs the frame of the present offset in the only slot and updates the offset (R236). -/
theorem saverIdle_of_onlySlot {h : Slot} {s : State} (ho : OnlySlot s h) :
    saverIdle s = .ok () { s with
      mem := Memory.write s.mem (slotAddr h 0) (Config.saverFrame s.offset).toList
      next := some h, free := [], offset := nextOffset s.offset } := by
  rw [saverIdle, ← Res.bind_assoc, nextTake_freeTaken_of_onlySlot ho, Res.bind_ok, poolAlloc_of_free_singleton rfl,
    Res.bind_ok]
  simp [State.hold, State.unhold]

/-- The section of an idle screensaver is the idle branch, the sections left open as they were (R235). -/
theorem saverSection_idle {h : Slot} {s : State} (hc : s.changes = s.lastSeen) (ho : OnlySlot s h) :
    saverSection s = .ok () { s with
      mem := Memory.write s.mem (slotAddr h 0) (Config.saverFrame s.offset).toList
      next := some h, free := [], offset := nextOffset s.offset } :=
  critical_ok.mpr ⟨_, (if_pos hc).trans (saverIdle_of_onlySlot ho), rfl⟩

/-- The section of a screensaver that saw the counter change is the active branch (R237). -/
theorem saverSection_active {s : State} (hc : s.changes ≠ s.lastSeen) : saverSection s = .ok () (saverActive s) :=
  critical_ok.mpr ⟨_, if_neg hc, rfl⟩

/-- Once due in RUN, SAVER_TICK clears its trigger and runs its section (R235). -/
theorem exec_saverTick {s : State} (hp : s.phase = .run) (hd : s.saverDue = true) :
    exec .saverTick s = (saverSection { s with saverDue := false }).outcome :=
  (live_of_ne (by simp [hp])).trans (if_pos ⟨hp, hd⟩)

/-- With the counter as last seen, SAVER_TICK installs the frame of the present offset in the only slot (R236). -/
theorem exec_saverTick_idle {s : State} {h : Slot} (hp : s.phase = .run) (hd : s.saverDue = true)
    (hc : s.changes = s.lastSeen) (ho : OnlySlot s h) :
    exec .saverTick s = .next { s with
      saverDue := false, mem := Memory.write s.mem (slotAddr h 0) (Config.saverFrame s.offset).toList
      next := some h, free := [], offset := nextOffset s.offset } :=
  (exec_saverTick hp hd).trans <| congrArg Res.outcome <|
    saverSection_idle (s := { s with saverDue := false }) hc ho

/-- With the counter changed, SAVER_TICK takes it over and restarts the offset (R237). -/
theorem exec_saverTick_active {s : State} (hp : s.phase = .run) (hd : s.saverDue = true) (hc : s.changes ≠ s.lastSeen) :
    exec .saverTick s = .next (saverActive { s with saverDue := false }) :=
  (exec_saverTick hp hd).trans <| congrArg Res.outcome <| saverSection_active (s := { s with saverDue := false }) hc

/-- Settles O55: the idle branch frees what is pending, so that the allocation can only take `h`; the active one touches no
slot. -/
theorem saverInstallsOrStandsBack : Obligations.SaverInstallsOrStandsBack := by
  intro s hp hd
  refine ⟨fun h hc ho => ⟨Memory.write s.mem (slotAddr h 0) (Config.saverFrame s.offset).toList, ?_, ?_, ?_⟩, ?_⟩
  · exact exec_saverTick_idle hp hd hc ho
  · exact Memory.readBlock_write_image s.mem h _
  · exact fun _ hx => Memory.read_write_image_of_not_inSlot s.mem _ hx
  · exact exec_saverTick_active hp hd

end Sys2Proof.Machine
end

section
/-! PROOFS of the statements about decoding and encoding byte streams (spec/30_encoding.md R91, R99, R100). -/

namespace Sys2Proof

/-- Only SYNC and DATA have bytes, and these decode to the operation, whatever follows. -/
theorem decode_encode {i : Instr} {bs : List Byte} (hw : wellFormed i = true) (he : encode i = some bs)
    (rest : List Byte) : decode (bs ++ rest) = .ok (i, rest) := by
  cases i with
  | sync => exact (Laws.EncodeShape.sync bs hw he).2 rest
  | data d => exact (Laws.EncodeShape.data d bs hw he).2 rest
  | _ => cases he

/-- A stream is encoded operation by operation. -/
theorem encodeAll_cons_eq_some {i : Instr} {is : List Instr} {bs : List Byte} (h : encodeAll (i :: is) = some bs) :
    ∃ b rest, encode i = some b ∧ encodeAll is = some rest ∧ bs = b ++ rest := by
  rw [encodeAll] at h
  split at h
  · next b rest hb hrest => exact ⟨b, rest, hb, hrest, (Option.some.inj h).symm⟩
  · cases h

/-- Decoding a stream is decoding its head, then the rest. -/
theorem decodeAll_of_decode {bs rest : List Byte} {i : Instr} (h : decode bs = .ok (i, rest)) :
    decodeAll bs = i :: decodeAll rest := by
  cases bs with
  | nil => cases h
  | cons b bs => cases h; rfl

theorem decodeAll_encodeAll {is : List Instr} {bs : List Byte} (hw : ∀ i ∈ is, wellFormed i = true)
    (he : encodeAll is = some bs) : decodeAll bs = is := by
  induction is generalizing bs with
  | nil => cases he; rfl
  | cons i is ih =>
    obtain ⟨b, rest, hb, hrest, rfl⟩ := encodeAll_cons_eq_some he
    rw [List.forall_mem_cons] at hw
    rw [decodeAll_of_decode (decode_encode hw.1 hb rest), ih hw.2 hrest]

/-- What a byte decodes to has that byte as its encoding. -/
theorem encode_decodeByte (b : Byte) : encode (decodeByte b) = some [b] := by
  rw [decodeByte_eq]
  split
  · next h => rw [h]; rfl
  · rfl

theorem wellFormed_decodeByte (b : Byte) : wellFormed (decodeByte b) = true := by
  rw [decodeByte_eq]
  split
  · rfl
  · next h => exact bne_iff_ne.mpr h

theorem encodeAll_decodeAll (bs : List Byte) : encodeAll (decodeAll bs) = some bs := by
  induction bs with
  | nil => rfl
  | cons b bs ih => simp [decodeAll, encodeAll, encode_decodeByte, ih]

theorem wellFormed_of_mem_decodeAll {bs : List Byte} {i : Instr} (h : i ∈ decodeAll bs) : wellFormed i = true := by
  induction bs with
  | nil => cases h
  | cons b bs ih =>
    rcases List.mem_cons.mp h with rfl | h
    · exact wellFormed_decodeByte b
    · exact ih h

/-- Settles O3: one operation is one byte, both ways; streams follow by induction. -/
theorem streamDecodeEncodeAgree : Obligations.StreamDecodeEncodeAgree :=
  ⟨fun _ _ rest hw he => decode_encode hw he rest, fun _ _ => decodeAll_encodeAll,
    fun bs => ⟨encodeAll_decodeAll bs, fun _ => wellFormed_of_mem_decodeAll⟩⟩

/-- Settles O2, by computing the decoder on the bytes written out. -/
theorem wordsDecodeAsTheTableSays : Obligations.WordsDecodeAsTheTableSays := by
  unfold Obligations.WordsDecodeAsTheTableSays
  decide

end Sys2Proof
end

section
/-! PROOFS of the statements about colour arithmetic and gamma correction (spec/40_color_gamma.md), and of the gradient,
which divides colours (spec/41_image.md R141). -/

namespace Sys2Proof.Machine

/-! ## The clamp (R13) -/

theorem toNat_sat8 (x : Int) : ((sat8 x).toNat : Int) = max 0 (min 255 x) := by
  rw [sat8, BitVec.toNat_ofInt]
  omega

@[simp] theorem channel_map (f : Byte → Byte) (c : Color) (ch : Channel) :
    (Color.map f c).channel ch = f (c.channel ch) := by
  cases ch <;> rfl

/-! ## Gamma correction (R122, R123) -/

theorem toNat_gammaWith_saturate (lut : Byte → Byte) (v : Byte) :
    (gammaWith .saturate lut v).toNat = min (2 * (lut v).toNat) 255 := by
  have h := toNat_sat8 (2 * ((lut v).toNat : Int))
  simp only [gammaWith, doubled]
  omega

theorem toNat_gammaWith_wrap (lut : Byte → Byte) (v : Byte) :
    (gammaWith .wrap lut v).toNat = 2 * (lut v).toNat % 256 := rfl

theorem toNat_gamma (v : Byte) : (gamma v).toNat = min (2 * (Config.gammaLut v).toNat) 255 :=
  toNat_gammaWith_saturate _ v

theorem toNat_channel_gammaColor (c : Color) (ch : Channel) :
    ((gammaColor c).channel ch).toNat = min (2 * (Config.gammaLut (c.channel ch)).toNat) 255 := by
  rw [gammaColor, channel_map, toNat_gamma]

theorem exec_gammaCorrect {s : State} (h : s.phase ≠ .halted) (v : Byte) :
    exec (.gammaCorrect v) s = .next (s.withRet (.byte (gamma v))) := live_of_ne h

theorem exec_colorGamma {s : State} (h : s.phase ≠ .halted) (c : Color) :
    exec (.colorGamma c) s = .next (s.withRet (.color (gammaColor c))) := live_of_ne h

/-- Settles O24: saturation clamps the doubled curve value, each channel by itself. -/
theorem gammaDoublesAndClamps : Obligations.GammaDoublesAndClamps := fun _ h =>
  ⟨fun v => ⟨gamma v, exec_gammaCorrect h v, toNat_gamma v⟩,
    fun c => ⟨gammaColor c, exec_colorGamma h c, toNat_channel_gammaColor c⟩⟩

/-! ## Monotone curves (R124) -/

/-- Doubling and clamping at 255 keeps and reflects the order of the curve values cut at 128. -/
theorem min_double_le_iff (x y : Nat) : min (2 * x) 255 ≤ min (2 * y) 255 ↔ min x 128 ≤ min y 128 := by omega

theorem monotone_saturate_iff (lut : Byte → Byte) :
    MonotoneBytes (gammaWith .saturate lut) ↔
      ∀ a b : Byte, a.toNat ≤ b.toNat → min (lut a).toNat 128 ≤ min (lut b).toNat 128 := by
  simp only [MonotoneBytes, toNat_gammaWith_saturate, min_double_le_iff]

theorem monotone_saturate {lut : Byte → Byte} (h : MonotoneBytes lut) : MonotoneBytes (gammaWith .saturate lut) :=
  (monotone_saturate_iff lut).mpr fun a b hab => min_le_min_right 128 (h a b hab)

/-- Wrapping takes `y` from 128 on to `2 * y - 256`, below twice a value between `y - 128` and 128. -/
theorem not_monotone_wrap {lut : Byte → Byte} {a b : Byte} (hab : a.toNat ≤ b.toNat) (ha : (lut a).toNat < 128)
    (hb : 128 ≤ (lut b).toNat) (hlt : (lut b).toNat - 128 < (lut a).toNat) :
    ¬ MonotoneBytes (gammaWith .wrap lut) := by
  intro h
  have hle := h a b hab
  rw [toNat_gammaWith_wrap, toNat_gammaWith_wrap] at hle
  omega

/-- Settles O25: the clamped double is a monotone image of the value cut at 128; a wrapped one falls. -/
theorem saturationKeepsMonotoneCurves : Obligations.SaturationKeepsMonotoneCurves :=
  ⟨monotone_saturate_iff, fun _ => monotone_saturate, fun h => monotone_saturate h,
    fun _ _ _ => not_monotone_wrap⟩

/-! ## Scaling (R125, R126) -/

/-- Truncation and rounding down differ only below zero, where the clamp gives 0 for both. -/
theorem toNat_sat8_trunc (q : Rat) : ((sat8 (trunc q)).toNat : Int) = max 0 (min 255 ⌊q⌋) := by
  rw [toNat_sat8]
  rcases le_or_gt 0 q with hq | hq
  · rw [trunc, Int.tdiv_eq_ediv_of_nonneg (Rat.num_nonneg.mpr hq), ← Rat.floor_def']
  · have hfloor : ⌊q⌋ ≤ 0 := Int.floor_le_iff.mpr (hq.trans (by norm_num))
    have htrunc : trunc q ≤ 0 := by
      have hneg : 0 ≤ (-q.num).tdiv q.den :=
        Int.tdiv_nonneg (neg_nonneg.mpr (Rat.num_nonpos.mpr hq.le)) (Int.natCast_nonneg _)
      rw [Int.neg_tdiv] at hneg
      exact neg_nonneg.mp hneg
    omega

theorem exec_colorMul {s : State} (h : s.phase ≠ .halted) (c : Color) (q : Rat) :
    exec (.colorMul c (.rat q)) s = .next (s.withRet (.color (scaleMul c q))) := live_of_ne h

theorem exec_colorDiv {s : State} (h : s.phase ≠ .halted) (c : Color) {q : Rat} (hq : q ≠ 0) :
    exec (.colorDiv c (.rat q)) s = .next (s.withRet (.color (scaleDiv c q))) := (live_of_ne h).trans (if_neg hq)

theorem exec_colorDiv_zero {s : State} (h : s.phase ≠ .halted) (c : Color) :
    exec (.colorDiv c (.rat 0)) s = .refused .scalarUndefined := (live_of_ne h).trans (if_pos rfl)

/-- The floats that R127 excludes are refused. -/
theorem exec_scale_float {s : State} (h : s.phase ≠ .halted) (c : Color) {f : Scalar}
    (hf : f = .nan ∨ f = .posInf ∨ f = .negInf) :
    exec (.colorMul c f) s = .refused .scalarUndefined ∧ exec (.colorDiv c f) s = .refused .scalarUndefined := by
  rcases hf with rfl | rfl | rfl <;> exact ⟨live_of_ne h, live_of_ne h⟩

theorem toNat_channel_scaleMul (c : Color) (q : Rat) (ch : Channel) :
    (((scaleMul c q).channel ch).toNat : Int) = max 0 (min 255 ⌊((c.channel ch).toNat : Rat) * q⌋) := by
  rw [scaleMul, channel_map, toNat_sat8_trunc, ratOf]

theorem toNat_channel_scaleDiv (c : Color) (q : Rat) (ch : Channel) :
    (((scaleDiv c q).channel ch).toNat : Int) = max 0 (min 255 ⌊((c.channel ch).toNat : Rat) / q⌋) := by
  rw [scaleDiv, channel_map, toNat_sat8_trunc, ratOf]

/-- Settles O26: each channel is the exact product or quotient, truncated and clamped. -/
theorem scalingTruncatesAndClamps : Obligations.ScalingTruncatesAndClamps := fun _ c h =>
  ⟨fun q => ⟨scaleMul c q, exec_colorMul h c q, toNat_channel_scaleMul c q⟩,
    fun q hq => ⟨scaleDiv c q, exec_colorDiv h c hq, toNat_channel_scaleDiv c q⟩,
    exec_colorDiv_zero h c, fun _ => exec_scale_float h c⟩

/-! ## The gradient (R141) -/

/-- Dividing a channel by a whole number needs no clamp. -/
theorem toNat_channel_scaleDiv_natCast (c : Color) (n : Nat) (ch : Channel) :
    ((scaleDiv c (n : Rat)).channel ch).toNat = (c.channel ch).toNat / n := by
  have h := toNat_channel_scaleDiv c n ch
  have hfloor : ⌊((c.channel ch).toNat : Rat) / (n : Rat)⌋ = (((c.channel ch).toNat / n : Nat) : Int) := by
    rw [Rat.floor_natCast_div_natCast]; rfl
  have hle : (c.channel ch).toNat / n ≤ (c.channel ch).toNat := Nat.div_le_self _ _
  have hlt := (c.channel ch).isLt
  rw [hfloor] at h
  generalize (c.channel ch).toNat / n = d at h hle ⊢
  omega

/-- The byte of channel number `j` of pixel (row, col), of an image given by its pixels (R61). -/
theorem getD_toList_imageOfPixels (f : Nat → Nat → Color) {row col j : Nat} (hrow : row < 8) (hcol : col < 8)
    (hj : j < 3) : (imageOfPixels f).toList.getD (3 * (8 * row + col) + j) 0 =
      (f row col).channel (if j = 0 then .r else if j = 1 then .g else .b) := by
  have hk : 3 * (8 * row + col) + j < 192 := by omega
  have hr : (3 * (8 * row + col) + j) / 24 = row := by omega
  have hc : (3 * (8 * row + col) + j) % 24 / 3 = col := by omega
  have hm : (3 * (8 * row + col) + j) % 3 = j := by omega
  rw [List.getD_eq_getElem _ _ (by rw [Vector.length_toList]; exact hk), Vector.getElem_toList, imageOfPixels,
    Vector.getElem_ofFn, hr, hc, hm]

theorem exec_imgGradient {s : State} (h : s.phase ≠ .halted) (c : Color) :
    exec (.imgGradient c) s = .next (s.withRet (.image (gradientImage c))) := live_of_ne h

theorem toNat_gradientImage (c : Color) {row col j : Nat} (hrow : row < 8) (hcol : col < 8) (hj : j < 3) :
    ((gradientImage c).toList.getD (3 * (8 * row + col) + j) 0).toNat =
      (c.channel (if j = 0 then .r else if j = 1 then .g else .b)).toNat / (1 + row * row + col) := by
  rw [gradientImage, getD_toList_imageOfPixels _ hrow hcol hj, toNat_channel_scaleDiv_natCast, Config.gradDiv]

/-- Settles O28: each byte of the gradient is a channel divided by a whole number, where truncation is
division of natural numbers. -/
theorem gradientDividesEachPixel : Obligations.GradientDividesEachPixel := fun _ c h =>
  ⟨gradientImage c, exec_imgGradient h c, fun _ _ hr hc =>
    ⟨toNat_gradientImage c hr hc (j := 0) (by omega), toNat_gradientImage c hr hc (j := 1) (by omega),
      toNat_gradientImage c hr hc (j := 2) (by omega)⟩⟩

end Sys2Proof.Machine
end

section
/-! PROOFS of the statements about reading and writing pixels, bytes and rows (spec/41_image.md section 2, section 3). -/

namespace Sys2Proof.Machine

/-! ## The ranges of the indices (R142, R144) -/

theorem inEight_natCast {n : Nat} (h : n < 8) : inEight (n : Int) = true := by
  simp [inEight]
  omega

theorem inEight_and_natCast {m n : Nat} (hm : m < 8) (hn : n < 8) : (inEight (m : Int) && inEight (n : Int)) = true := by
  rw [inEight_natCast hm, inEight_natCast hn, Bool.and_self]

theorem inEight_eq_false {x : Int} (h : x < 0 ∨ 7 < x) : inEight x = false := by
  simp [inEight]
  omega

theorem inEight_and_eq_false {x y : Int} (h : x < 0 ∨ 7 < x ∨ y < 0 ∨ 7 < y) : (inEight x && inEight y) = false := by
  rw [← or_assoc] at h
  rcases h with h | h
  · rw [inEight_eq_false h, Bool.false_and]
  · rw [inEight_eq_false h, Bool.and_false]

theorem offsetOk_natCast {k : Nat} (h : k < 192) : offsetOk (k : Int) = true := by
  simp [offsetOk]
  omega

theorem offsetOk_eq_false {k : Int} (h : k < 0 ∨ 191 < k) : offsetOk k = false := by
  simp [offsetOk]
  omega

theorem pixelOffset_bound {row col : Nat} (hrow : row < 8) (hcol : col < 8) : 3 * (8 * row + col) + 3 ≤ 192 := by omega

/-! ## Each operation in range is one access -/

theorem rowRead_natCast (img : ImgRef) {row : Nat} (hrow : row < 8) (s : State) :
    rowRead img row s = (imgRead img (24 * row) 24 s).bind fun bs s' => .ok (rowOfBytes bs) s' :=
  if_pos (inEight_natCast hrow)

section InRange
variable {s : State} (hs : s.phase ≠ .halted) (img : ImgRef) {row col k : Nat}
include hs

theorem exec_imgIndexRd (hrow : row < 8) (hcol : col < 8) :
    exec (.imgIndexRd img row col) s =
      ((imgRead img (3 * (8 * row + col)) 3 s).bind fun bs s' => .ok () (s'.withRet (.color (colorAt bs 0)))).outcome :=
  (live_of_ne hs).trans <| congrArg Res.outcome (if_pos (inEight_and_natCast hrow hcol))

theorem exec_imgByteRd (hk : k < 192) :
    exec (.imgByteRd img k) s =
      ((imgRead img k 1 s).bind fun bs s' => .ok () (s'.withRet (.byte (bs.getD 0 0)))).outcome :=
  (live_of_ne hs).trans <| congrArg Res.outcome (if_pos (offsetOk_natCast hk))

theorem exec_imgRow (hrow : row < 8) :
    exec (.imgRow img row) s =
      ((imgRead img (24 * row) 24 s).bind fun bs s' => .ok () (s'.withRet (.row (rowOfBytes bs)))).outcome := by
  refine (live_of_ne hs).trans ?_
  rw [rowRead_natCast img hrow, Res.bind_assoc]
  rfl

theorem exec_imgIndexWr (c : Color) (hrow : row < 8) (hcol : col < 8) :
    exec (.imgIndexWr img row col c) s = (imgWrite img (3 * (8 * row + col)) (colorBytes c) s).outcome :=
  (live_of_ne hs).trans <| congrArg Res.outcome (if_pos (inEight_and_natCast hrow hcol))

theorem exec_imgByteWr (v : Byte) (hk : k < 192) : exec (.imgByteWr img k v) s = (imgWrite img k [v] s).outcome :=
  (live_of_ne hs).trans <| congrArg Res.outcome (if_pos (offsetOk_natCast hk))

/-- SET_PIXEL in range writes the pixel in column x and row y (R146, D21). -/
theorem exec_setPixel (c : Color) (hrow : row < 8) (hcol : col < 8) :
    exec (.setPixel img col row c) s = (imgWrite img (3 * (8 * row + col)) (colorBytes c) s).outcome :=
  (live_of_ne hs).trans <| congrArg Res.outcome (if_pos (inEight_and_natCast hcol hrow))

end InRange

/-! ## Reads (R68) -/

/-- The operand has these 192 bytes: an image value, or a slot its agent owns whose bytes are all written. -/
def Readable (s : State) (img : ImgRef) (bs : List Byte) : Prop :=
  (∃ v : Image, img = .value v ∧ bs = v.toList) ∨
    ∃ who h, img = .slot who h ∧ owns who h s = true ∧ slotBytes s h = some bs

/-- A part of a block that reads as `bs` reads as that part of `bs`. -/
theorem Memory.readBlock_part {m : Memory} {a n k l : Nat} {bs : List Byte} (h : Memory.readBlock m a n = some bs)
    (hkl : k + l ≤ n) : Memory.readBlock m (a + k) l = some ((bs.drop k).take l) := by
  obtain ⟨hlen, hread⟩ := Memory.readBlock_some h
  have hpart : ((bs.drop k).take l).length = l := by simp; omega
  have hblock := Memory.readBlock_eq (m := m) (a := a + k) ((bs.drop k).take l) fun i hi => by
    rw [hpart] at hi
    rw [Nat.add_assoc, hread (k + i) (by omega), List.getElem?_take_of_lt hi, List.getElem?_drop]
  rwa [hpart] at hblock

/-- Within the bounds, the owner reads what the memory lists. -/
theorem memRead_of_owns {who : Agent} {h : Slot} {k n : Nat} {bs : List Byte} {s : State} (hk : k + n ≤ 192)
    (ho : owns who h s = true) (hb : Memory.readBlock s.mem (slotAddr h k) n = some bs) :
    memRead who h k n s = .ok bs s := by
  simp [memRead, ho, hb, Nat.not_lt.mpr hk]

theorem imgRead_of_readable {s : State} {img : ImgRef} {bs : List Byte} (hr : Readable s img bs) {k n : Nat}
    (hk : k + n ≤ 192) : imgRead img k n s = .ok ((bs.drop k).take n) s := by
  obtain ⟨v, rfl, rfl⟩ | ⟨who, h, rfl, ho, hb⟩ := hr
  · exact if_neg (Nat.not_lt.mpr hk)
  · exact memRead_of_owns hk ho (Memory.readBlock_part hb hk)

theorem getD_take_drop (bs : List Byte) {j k n : Nat} (hj : j < n) :
    ((bs.drop k).take n).getD j 0 = bs.getD (k + j) 0 := by
  rw [List.getD_eq_getElem?_getD, List.getElem?_take_of_lt hj, List.getElem?_drop, ← List.getD_eq_getElem?_getD]

/-- Settles O29: every operand of the statement is readable, and each operation returns the part it reads. -/
theorem imageReadsReturnTheBytes : Obligations.ImageReadsReturnTheBytes := by
  intro s img bs hs (hr : Readable s img bs)
  refine ⟨fun row col hrow hcol => ⟨colorAt ((bs.drop (3 * (8 * row + col))).take 3) 0, ?_, ?_⟩, fun k hk => ?_,
    fun row hrow => ⟨rowOfBytes ((bs.drop (24 * row)).take 24), ?_, fun i => ?_⟩⟩
  · rw [exec_imgIndexRd hs img hrow hcol, imgRead_of_readable hr (pixelOffset_bound hrow hcol)]
    rfl
  · exact ⟨getD_take_drop bs (j := 0) (by omega), getD_take_drop bs (by omega), getD_take_drop bs (by omega)⟩
  · rw [exec_imgByteRd hs img hk, imgRead_of_readable hr hk, Res.bind_ok, getD_take_drop bs Nat.one_pos]
    rfl
  · rw [exec_imgRow hs img hrow, imgRead_of_readable hr (by omega)]
    rfl
  · simp only [rowOfBytes, colorAt, Fin.getElem_fin, Vector.getElem_ofFn, Color.mk.injEq]
    exact ⟨getD_take_drop bs (by omega), getD_take_drop bs (by omega), getD_take_drop bs (by omega)⟩

/-! ## Writes into a slot (R68) -/

/-- Three bytes written at `a` are read there, and no other byte has changed. -/
theorem Memory.read_write_color (m : Memory) (a : Nat) (c : Color) :
    Memory.read (Memory.write m a (colorBytes c)) a = some c.r ∧
      Memory.read (Memory.write m a (colorBytes c)) (a + 1) = some c.g ∧
      Memory.read (Memory.write m a (colorBytes c)) (a + 2) = some c.b ∧
      ∀ x, x < a ∨ a + 3 ≤ x → Memory.read (Memory.write m a (colorBytes c)) x = Memory.read m x :=
  have hread := Memory.read_write_inside m a (colorBytes c)
  ⟨hread 0 (show 0 < 3 by decide), hread 1 (show 1 < 3 by decide), hread 2 (show 2 < 3 by decide),
    Memory.read_write_outside m a (colorBytes c)⟩

theorem imgWrite_slot_of_owns {s : State} {who : Agent} {h : Slot} (ho : owns who h s = true) {k : Nat}
    {bs : List Byte} (hk : k + bs.length ≤ 192) :
    imgWrite (.slot who h) k bs s = .ok () { s with mem := Memory.write s.mem (slotAddr h k) bs } :=
  memWrite_of_owns hk ho

/-- Settles O30: all three operations are one write of the owner, at the address of the pixel or of the byte. -/
theorem slotWritesStoreOnlyTheirBytes : Obligations.SlotWritesStoreOnlyTheirBytes := by
  intro s who h c hs ho
  refine ⟨fun row col hrow hcol => ⟨Memory.write s.mem (slotAddr h (3 * (8 * row + col))) (colorBytes c), ?_, ?_,
    Memory.read_write_color s.mem _ c⟩, fun k v hk => ⟨Memory.write s.mem (slotAddr h k) [v], ?_,
    Memory.read_write_byte_same s.mem _ v, fun _ => Memory.read_write_byte_ne s.mem v⟩⟩
  · rw [exec_imgIndexWr hs _ c hrow hcol, imgWrite_slot_of_owns ho (pixelOffset_bound hrow hcol), Res.outcome_ok]
  · rw [exec_setPixel hs _ c hrow hcol, imgWrite_slot_of_owns ho (pixelOffset_bound hrow hcol), Res.outcome_ok]
  · rw [exec_imgByteWr hs _ v hk, imgWrite_slot_of_owns ho hk, Res.outcome_ok]

/-! ## Writes into an image value -/

theorem imgWrite_value {v : Image} {k : Nat} {bs : List Byte} (hk : k + bs.length ≤ 192) (s : State) :
    imgWrite (.value v) k bs s = .ok () (s.withRet (.image (splice v k bs))) :=
  if_neg (Nat.not_lt.mpr hk)

theorem getElem_splice (v : Image) (k : Nat) (bs : List Byte) (i : Fin 192) :
    (splice v k bs)[i] = if k ≤ i.val ∧ i.val < k + bs.length then bs.getD (i.val - k) 0 else v[i] := by
  simp only [splice, Fin.getElem_fin, Vector.getElem_ofFn]

theorem getElem_splice_byte (v : Image) (k : Nat) (b : Byte) (i : Fin 192) :
    (splice v k [b])[i] = if i.val = k then b else v[i] := by
  have hk : k ≤ i.val ∧ i.val < k + [b].length ↔ i.val = k := by simp; omega
  rw [getElem_splice, if_congr hk rfl rfl]
  split
  · next h => rw [h, Nat.sub_self]; rfl
  · rfl

theorem getElem_splice_color (v : Image) (k : Nat) (c : Color) (i : Fin 192) :
    (splice v k (colorBytes c))[i] =
      if i.val = k then c.r else if i.val = k + 1 then c.g else if i.val = k + 2 then c.b else v[i] := by
  rw [getElem_splice]
  by_cases h : k ≤ i.val ∧ i.val < k + (colorBytes c).length
  · have hlen : (colorBytes c).length = 3 := rfl
    obtain hi | hi | hi : i.val = k ∨ i.val = k + 1 ∨ i.val = k + 2 := by omega
    · rw [if_pos h, if_pos hi, hi, Nat.sub_self]; rfl
    · rw [if_pos h, if_neg (by omega), if_pos hi, hi, Nat.add_sub_cancel_left]; rfl
    · rw [if_pos h, if_neg (by omega), if_neg (by omega), if_pos hi, hi, Nat.add_sub_cancel_left]; rfl
  · have hlen : (colorBytes c).length = 3 := rfl
    rw [if_neg h, if_neg (by omega), if_neg (by omega), if_neg (by omega)]

/-- SET_PIXEL out of bounds discards the pixel: a slot stays, an image value is returned as it is (R146). -/
theorem exec_setPixel_out {s : State} (hs : s.phase ≠ .halted) {x y : Int} (hxy : x < 0 ∨ 7 < x ∨ y < 0 ∨ 7 < y)
    (c : Color) :
    (∀ v, exec (.setPixel (.value v) x y c) s = .next (s.withRet (.image v))) ∧
      ∀ who h, exec (.setPixel (.slot who h) x y c) s = .next s := by
  have hout : ¬ (inEight x && inEight y) = true := by rw [inEight_and_eq_false hxy]; exact Bool.false_ne_true
  exact ⟨fun _ => (live_of_ne hs).trans <| congrArg Res.outcome (if_neg hout),
    fun _ _ => (live_of_ne hs).trans <| congrArg Res.outcome (if_neg hout)⟩

/-- Settles O31: a write into a value returns the value with the bytes spliced in. -/
theorem valueWritesReturnTheImage : Obligations.ValueWritesReturnTheImage := by
  intro s v c hs
  refine ⟨fun row col hrow hcol => ⟨splice v (3 * (8 * row + col)) (colorBytes c), ?_, ?_,
    getElem_splice_color v _ c⟩, fun k b hk => ⟨splice v k [b], ?_, getElem_splice_byte v k b⟩,
    fun x y hxy => (exec_setPixel_out hs hxy c).1 v⟩
  · rw [exec_imgIndexWr hs _ c hrow hcol, imgWrite_value (pixelOffset_bound hrow hcol)]
    rfl
  · rw [exec_setPixel hs _ c hrow hcol, imgWrite_value (pixelOffset_bound hrow hcol)]
    rfl
  · rw [exec_imgByteWr hs _ b hk, imgWrite_value hk]
    rfl

/-! ## Violations and faults (R142, R143, R144, R145, R164) -/

/-- An operation that raises at once answers the halted block. -/
theorem live_raise {α : Type} {s : State} (hs : s.phase ≠ .halted) {m : Res α} {c : Cause} (hm : m = raise c s) :
    live s m.outcome = .next (s.raiseViolation c) := by
  rw [live_of_ne hs, hm]; rfl

/-- Settles O32: the range is tested before the operand is looked at. -/
theorem outOfRangeIsFatalOnlyForIndexing : Obligations.OutOfRangeIsFatalOnlyForIndexing := by
  intro s img c v hs
  refine ⟨fun row col hrc => ?_, fun k hk => ?_, fun row hrow => ?_⟩
  · have hout : ¬ (inEight row && inEight col) = true := by rw [inEight_and_eq_false hrc]; exact Bool.false_ne_true
    exact ⟨live_raise hs (if_neg hout), live_raise hs (if_neg hout),
      (exec_setPixel_out hs (x := col) (y := row) (by omega) c).2⟩
  · have hout : ¬ offsetOk k = true := by rw [offsetOk_eq_false hk]; exact Bool.false_ne_true
    exact ⟨live_raise hs (if_neg hout), live_raise hs (if_neg hout)⟩
  · have hout : ¬ inEight row = true := by rw [inEight_eq_false hrow]; exact Bool.false_ne_true
    have hraise : rowRead img row s = raise .indexOutOfRange s := if_neg hout
    exact live_raise (c := .indexOutOfRange) hs (by rw [hraise]; rfl)

section Foreign
variable {s : State} {who : Agent} {h : Slot} (ho : owns who h s = false)
include ho

theorem imgRead_foreign {k n : Nat} (hk : k + n ≤ 192) :
    imgRead (.slot who h) k n s = .raised (s.raiseViolation .badHandle) := by
  simp [imgRead, memRead, ho, Nat.not_lt.mpr hk, raise]

theorem imgWrite_foreign {k : Nat} {bs : List Byte} (hk : k + bs.length ≤ 192) :
    imgWrite (.slot who h) k bs s = .raised (s.raiseViolation .badHandle) := by
  simp [imgWrite, memWrite, ho, Nat.not_lt.mpr hk, raise]

end Foreign

/-- A block with an unlisted byte cannot be read (log 7). -/
theorem Memory.readBlock_eq_none {m : Memory} {a n i : Nat} (hi : i < n) (h : Memory.read m (a + i) = none) :
    Memory.readBlock m a n = none := by
  refine Option.eq_none_iff_forall_ne_some.mpr fun bs hbs => ?_
  obtain ⟨hlen, hread⟩ := Memory.readBlock_some hbs
  rw [hread i hi, List.getElem?_eq_none_iff] at h
  omega

theorem imgRead_unwritten {s : State} {who : Agent} {h : Slot} (ho : owns who h s = true) {k n j : Nat}
    (hk : k + n ≤ 192) (hj : j < n) (hr : Memory.read s.mem (slotAddr h (k + j)) = none) :
    imgRead (.slot who h) k n s = .fault (.unwrittenByte h) := by
  have hnone : Memory.readBlock s.mem (slotAddr h k) n = none := Memory.readBlock_eq_none hj (by
    rwa [slotAddr, Nat.add_assoc, ← slotAddr])
  simp [imgRead, memRead, ho, hnone, Nat.not_lt.mpr hk]

/-- Settles O33: in range, the access is refused for want of ownership, or faults for want of a byte. -/
theorem slotAccessNeedsOwnershipAndContents : Obligations.SlotAccessNeedsOwnershipAndContents := by
  intro s who h row col k c v hs hrow hcol hk
  have hpixel := pixelOffset_bound hrow hcol
  have hrowBytes : 24 * row + 24 ≤ 192 := by omega
  refine ⟨fun ho => ?_, fun ho => ⟨fun j hj hr => ?_, fun j hj hr => ?_, fun hr => ?_⟩⟩
  · simp only [List.forall_mem_cons]
    refine ⟨?_, ?_, ?_, ?_, ?_, ?_, List.forall_mem_nil _⟩
    · rw [exec_imgIndexRd hs _ hrow hcol, imgRead_foreign ho hpixel]; rfl
    · rw [exec_imgIndexWr hs _ c hrow hcol, imgWrite_foreign ho hpixel]; rfl
    · rw [exec_setPixel hs _ c hrow hcol, imgWrite_foreign ho hpixel]; rfl
    · rw [exec_imgRow hs _ hrow, imgRead_foreign ho hrowBytes]; rfl
    · rw [exec_imgByteRd hs _ hk, imgRead_foreign ho hk]; rfl
    · rw [exec_imgByteWr hs _ v hk, imgWrite_foreign ho hk]; rfl
  · rw [exec_imgIndexRd hs _ hrow hcol, imgRead_unwritten ho hpixel hj hr]; rfl
  · rw [exec_imgRow hs _ hrow, imgRead_unwritten ho hrowBytes hj hr]; rfl
  · rw [exec_imgByteRd hs _ hk, imgRead_unwritten (j := 0) ho hk Nat.one_pos hr]; rfl

end Sys2Proof.Machine
end

section
/-! PROOFS of the statements about the pool and the next-image cell (spec/42_pool.md), FRAME_SWAP (spec/45_display_scanout.md
R223) and the completion of a frame (spec/44_deframer.md R204). -/

namespace Sys2Proof.Machine

/-! ## Critical sections (R262) -/

/-- A section whose body ends inside it ends outside it. -/
theorem critical_eq_ok {α : Type} {who : Agent} {cells : List Shared} {body : State → Res α} {s t : State} {a : α}
    (h : body (s.enterLock who cells) = .ok a (t.enterLock who cells)) : critical who cells body s = .ok a t :=
  critical_ok.mpr ⟨_, h, rfl⟩

/-- A violation abandons the sections that are open, this one with them (R252). -/
theorem critical_eq_raised {α : Type} {who : Agent} {cells : List Shared} {body : State → Res α} {s : State} {c : Cause}
    (h : body (s.enterLock who cells) = .raised ((s.enterLock who cells).raiseViolation c)) :
    critical who cells body s = .raised (s.raiseViolation c) :=
  critical_raised.mpr h

@[simp] theorem owns_enterLock (who w : Agent) (h : Slot) (cells : List Shared) (s : State) :
    owns w h (s.enterLock who cells) = owns w h s := rfl

theorem release_enterLock (who w : Agent) (h : Slot) (cells : List Shared) (s : State) :
    (s.enterLock who cells).release w h = (s.release w h).enterLock who cells := by
  simp only [State.release, apply_ite (State.enterLock who cells)]
  rfl

/-! ## Local variables (R24) -/

theorem unhold_hold (who : Agent) (h : Slot) (s : State) : (s.hold who h).unhold who h = s := by
  simp [State.hold, State.unhold]

theorem owns_of_held {who : Agent} {h : Slot} {s : State} (hh : (who, h) ∈ s.held) : owns who h s = true :=
  (owns_iff who h s).mpr (.inl hh)

/-- DISP owns its current buffer (R24). -/
theorem owns_disp_of_cur {c : Slot} {s : State} (hc : s.cur = some c) : owns .disp c s = true :=
  (owns_iff .disp c s).mpr (.inr (.inr ⟨rfl, hc⟩))

theorem release_of_held {who : Agent} {h : Slot} {s : State} (hh : (who, h) ∈ s.held) :
    s.release who h = { s with held := s.held.erase (who, h) } := by
  simp [State.release, State.unhold, hh]

theorem release_of_asm {h : Slot} {s : State} (hh : (Agent.rx, h) ∉ s.held) (ha : s.asm = some h) :
    s.release .rx h = { s with asm := none } := by
  simp [State.release, hh, ha]

theorem release_of_cur {h : Slot} {s : State} (hh : (Agent.disp, h) ∉ s.held) (hc : s.cur = some h) :
    s.release .disp h = { s with cur := none } := by
  simp [State.release, hh, hc]

/-! ## POOL_ALLOC and POOL_FREE (R161, R162) -/

theorem mem_insertFree (x h : Slot) (l : List Slot) : x ∈ insertFree h l ↔ x = h ∨ x ∈ l := by
  induction l with
  | nil => simp [insertFree]
  | cons y ys ih =>
    rw [insertFree]
    split_ifs with hlt heq
    · exact List.mem_cons
    · rw [heq]; simp
    · rw [List.mem_cons, ih, List.mem_cons, or_left_comm]

/-- Settles O34: the slot the model chooses is free, and the image is written into it alone. -/
theorem allocationTakesAFreeSlot : Obligations.AllocationTakesAFreeSlot := by
  intro s who init hs
  have hexec : exec (.poolAlloc who init) s =
      ((poolAlloc who init s).bind fun h s' => .ok () (s'.withRet (.handle h))).outcome := live_of_ne hs
  obtain ⟨hnil, halloc⟩ | ⟨h, d, hmem, hchoose, halloc⟩ := poolAlloc_cases who init s
  · exact ⟨fun hne => absurd hnil hne, fun _ => by rw [hexec, halloc]; rfl⟩
  · refine ⟨fun _ => ⟨h, Memory.write s.mem (slotAddr h 0) init.toList, d, hmem, by rw [hexec, halloc]; rfl,
      Memory.readBlock_write_image s.mem h init, fun _ => Memory.read_write_image_of_not_inSlot s.mem init⟩,
      fun hnil => ?_⟩
    rw [hnil] at hmem
    exact absurd hmem List.not_mem_nil

theorem exec_poolFree {s : State} (hs : s.phase ≠ .halted) {who : Agent} {h : Slot} (ho : owns who h s = true)
    (hf : h ∉ s.free) :
    exec (.poolFree who h) s = .next { s.release who h with free := insertFree h s.free } := by
  refine (live_of_ne hs).trans ?_
  obtain ⟨hno | hin, _⟩ | ⟨_, _, hok⟩ := poolFree_cases who h s
  · exact nomatch ho.symm.trans hno
  · exact absurd hin hf
  · rw [hok, Res.outcome_ok]

theorem exec_poolFree_bad {s : State} (hs : s.phase ≠ .halted) {who : Agent} {h : Slot}
    (hbad : h ∈ s.free ∨ owns who h s = false) :
    exec (.poolFree who h) s = .next (s.raiseViolation .badHandle) := by
  refine (live_of_ne hs).trans ?_
  obtain ⟨_, hraise⟩ | ⟨ho, hf, _⟩ := poolFree_cases who h s
  · rw [hraise, Res.outcome_raised]
  · exact (hbad.elim hf fun hno => nomatch ho.symm.trans hno).elim

/-- Settles O35: the handle leaves the place where the caller has it, and enters the free list. -/
theorem freeingReturnsTheHandle : Obligations.FreeingReturnsTheHandle := by
  intro s who h hs
  refine ⟨fun hf hh => ?_, fun hf hh ha => ?_, fun hf hh hc => ?_, exec_poolFree_bad hs, fun x => mem_insertFree x h s.free⟩
  · rw [exec_poolFree hs (owns_of_held hh) hf, release_of_held hh]
  · rw [exec_poolFree hs (owns_rx_of_asm ha) hf, release_of_asm hh ha]
  · rw [exec_poolFree hs (owns_disp_of_cur hc) hf, release_of_cur hh hc]

/-! ## NEXT_REPLACE and NEXT_TAKE (R166, R167) -/

section Replace
variable {s : State} {who : Agent} {h o : Slot} (ho : owns who h s = true) (hf : h ∉ s.free)
include ho hf

theorem nextReplace_empty (hn : s.next = none) : nextReplace who h s = .ok () { s.release who h with next := some h } := by
  simp [nextReplace, ho, hf, hn]

theorem nextReplace_occupied (hn : s.next = some o) (hfo : o ∉ s.free) :
    nextReplace who h s = .ok () { s.release who h with next := some h, free := insertFree o s.free } := by
  have hfree : o ∉ ({ s.release who h with next := some h } : State).free := by simpa using hfo
  obtain ⟨hno | hin, _⟩ | ⟨_, _, hnone, _⟩ | ⟨_, _, p, hp, heq⟩ := nextReplace_cases who h s
  · exact nomatch ho.symm.trans hno
  · exact absurd hin hf
  · exact nomatch hn.symm.trans hnone
  · obtain rfl : o = p := Option.some.inj (hn.symm.trans hp)
    rw [heq, poolFree_hold hfree]
    simp

theorem exec_nextReplace_empty (hs : s.phase ≠ .halted) (hn : s.next = none) :
    exec (.nextReplace who h) s = .next { s.release who h with next := some h } := by
  refine (live_of_ne hs).trans (congrArg Res.outcome (critical_eq_ok (a := ()) ?_))
  rw [nextReplace_empty (s := s.enterLock who [.next, .pool]) ho hf hn, release_enterLock]
  rfl

theorem exec_nextReplace_occupied (hs : s.phase ≠ .halted) (hn : s.next = some o) (hfo : o ∉ s.free) :
    exec (.nextReplace who h) s = .next { s.release who h with next := some h, free := insertFree o s.free } := by
  refine (live_of_ne hs).trans (congrArg Res.outcome (critical_eq_ok (a := ()) ?_))
  rw [nextReplace_occupied (s := s.enterLock who [.next, .pool]) ho hf hn hfo, release_enterLock]
  rfl

end Replace

theorem exec_nextReplace_bad {s : State} (hs : s.phase ≠ .halted) {who : Agent} {h : Slot}
    (hbad : h ∈ s.free ∨ owns who h s = false) :
    exec (.nextReplace who h) s = .next (s.raiseViolation .badHandle) := by
  refine (live_of_ne hs).trans (congrArg Res.outcome (critical_eq_raised ?_))
  obtain ⟨_, hraise⟩ | ⟨ho, hf, _⟩ | ⟨ho, hf, _⟩ := nextReplace_cases who h (s.enterLock who [.next, .pool])
  · exact hraise
  all_goals exact (hbad.elim hf fun hno => nomatch ho.symm.trans hno).elim

theorem nextTake_occupied {s : State} {h : Slot} (who : Agent) (hn : s.next = some h) :
    nextTake who s = .ok (some h) (State.hold who h { s with next := none }) := by
  rw [nextTake, hn]

theorem nextTake_empty {s : State} (who : Agent) (hn : s.next = none) : nextTake who s = .ok none s := by
  rw [nextTake, hn]

theorem exec_nextTake {s t : State} (hs : s.phase ≠ .halted) {who : Agent} {x : Option Slot}
    (ht : nextTake who (s.enterLock who [.next]) = .ok x (t.enterLock who [.next])) :
    exec (.nextTake who) s = .next (t.withRet (.optHandle x)) := by
  refine (live_of_ne hs).trans ?_
  rw [critical_eq_ok ht]
  rfl

/-- Settles O36: one law for a full cell and one for an empty one, and the place the handle leaves. -/
theorem nextCellIsAMailbox : Obligations.NextCellIsAMailbox := by
  intro s who h hs
  refine ⟨fun hf hh hn => ?_, fun hf hh ha hn => ?_, fun o hf hfo hh hn => ?_, fun o hf hfo hh ha hn => ?_,
    fun hf hh hc hn => ?_, fun o hf hfo hh hc hn => ?_, exec_nextReplace_bad hs, fun hn => ?_, fun hn => ?_⟩
  · rw [exec_nextReplace_empty (owns_of_held hh) hf hs hn, release_of_held hh]
  · rw [exec_nextReplace_empty (owns_rx_of_asm ha) hf hs hn, release_of_asm hh ha]
  · rw [exec_nextReplace_occupied (owns_of_held hh) hf hs hn hfo, release_of_held hh]
  · rw [exec_nextReplace_occupied (owns_rx_of_asm ha) hf hs hn hfo, release_of_asm hh ha]
  · rw [exec_nextReplace_empty (owns_disp_of_cur hc) hf hs hn, release_of_cur hh hc]
  · rw [exec_nextReplace_occupied (owns_disp_of_cur hc) hf hs hn hfo, release_of_cur hh hc]
  · exact exec_nextTake hs (t := State.hold who h { s with next := none }) (nextTake_occupied who hn)
  · exact exec_nextTake hs (t := s) (nextTake_empty who hn)

/-! ## FRAME_SWAP (R223) -/

theorem frameSwap_none {s : State} (hn : s.next = none) : frameSwap s = .ok () s :=
  critical_eq_ok (by rw [nextTake_empty (s := s.enterLock ..) .disp hn, Res.bind_ok])

/-- The pending handle, once in a local variable, changes places with the current one, which is then freed. -/
theorem frameSwap_some {s : State} {c h : Slot} (hc : s.cur = some c) (hf : c ∉ s.free) (hn : s.next = some h) :
    frameSwap s = .ok () { s with cur := some h, next := none, free := insertFree c s.free } := by
  refine critical_eq_ok ?_
  rw [nextTake_occupied (s := s.enterLock ..) .disp hn, Res.bind_ok]
  simp only [hold_cur, enterLock_cur, hc, unhold_hold]
  exact poolFree_hold hf

/-- Settles O53. -/
theorem frameSwapAdoptsThePendingImage : Obligations.FrameSwapAdoptsThePendingImage := by
  intro s c hs hc hf
  have hexec : exec .frameSwap s = (frameSwap s).outcome := live_of_ne hs
  refine ⟨fun hn => ?_, fun h hn => ?_⟩
  · rw [hexec, frameSwap_none hn, Res.outcome_ok]
  · rw [hexec, frameSwap_some hc hf hn, Res.outcome_ok]

/-! ## The completion of a frame (R204) -/

/-- Publishing the assembly buffer leaves the only slot as the only free one, whether it was pending or free before. -/
theorem nextReplace_of_onlySlot {s : State} {a h : Slot} (ha : s.asm = some a) (hh : (Agent.rx, a) ∉ s.held)
    (hne : h ≠ a) (ho : OnlySlot s h) :
    nextReplace .rx a s = .ok () { s with asm := none, next := some a, free := [h] } := by
  obtain ⟨hn, hfree⟩ | ⟨hn, hfree⟩ := ho
  · rw [nextReplace_occupied (owns_rx_of_asm ha) (by simp [hfree]) hn (by simp [hfree]), release_of_asm hh ha, hfree,
      insertFree]
  · rw [nextReplace_empty (owns_rx_of_asm ha) (by simp [hfree, hne.symm]) hn, release_of_asm hh ha, ← hfree]

/-- The assembly buffer is published and the only slot becomes the new one, filled with ASM_FILL. -/
theorem completeFrame_of_onlySlot {s : State} {a h : Slot} (ha : s.asm = some a) (hh : (Agent.rx, a) ∉ s.held)
    (hne : h ≠ a) (ho : OnlySlot s h) :
    completeFrame s = .ok () { s with
      mem := Memory.write s.mem (slotAddr h 0) Config.asmFill.toList, next := some a, asm := some h, free := []
      noticePending := s.noticePending + 1, rxState := .awaitingSync } := by
  have hsection := critical_eq_ok (who := .rx) (cells := [.next, .pool]) (a := ()) (s := s)
    (t := { s with
      mem := Memory.write s.mem (slotAddr h 0) Config.asmFill.toList, next := some a, asm := some h, free := [] })
    (body := fun s =>
      match s.asm with
      | none => raise .badHandle s
      | some a =>
        (nextReplace .rx a s).bind fun _ s => (poolAlloc .rx Config.asmFill s).bind fun h s => .ok () (adoptAsm h s))
    (by
      simp only [enterLock_asm, ha]
      rw [nextReplace_of_onlySlot (s := s.enterLock ..) ha hh hne ho, Res.bind_ok, poolAlloc_of_free_singleton rfl,
        Res.bind_ok, adoptAsm, unhold_hold]
      rfl)
  exact congrArg (fun r : Res Unit => r.bind _) hsection

/-- A byte of one slot is not in another. -/
theorem not_inSlot_slotAddr {a h : Slot} (hne : h ≠ a) {k : Nat} (hk : k < 192) : ¬ inSlot h (slotAddr a k) := by
  have : h.val ≠ a.val := fun e => hne (Fin.ext e)
  unfold inSlot slotAddr
  omega

/-- The last byte of a frame is stored and the frame completed (R203, R204). -/
theorem exec_data_last {s : State} {d : Byte} {a h : Slot} (hs : s.phase ≠ .halted) (hd : d ≠ 0xFF#8)
    (hr : s.rxState = .filling 191) (ha : s.asm = some a) (hh : (Agent.rx, a) ∉ s.held) (hne : h ≠ a)
    (ho : OnlySlot s h) :
    exec (.data d) s = .next { s with
      mem := Memory.write (Memory.write s.mem (slotAddr a 191) [d]) (slotAddr h 0) Config.asmFill.toList
      next := some a, asm := some h, free := [], noticePending := s.noticePending + 1, rxState := .awaitingSync } := by
  rw [exec_data hs hd, dataByte_filling d hr ha, dif_neg (show ¬ (191 : Fin 192).val < 191 by decide)]
  exact congrArg Res.outcome <|
    completeFrame_of_onlySlot (s := { s with mem := Memory.write s.mem (slotAddr a 191) [d] }) ha hh hne ho

/-- Settles O46: the byte is stored, then the frame is completed; the fresh slot is another one. -/
theorem lastByteCompletesTheFrame : Obligations.LastByteCompletesTheFrame := by
  intro s d a h hs hd hr ha hheld hne ho
  have hh : (Agent.rx, a) ∉ s.held := by simp [hheld]
  refine ⟨_, exec_data_last hs hd hr ha hh hne ho, ?_, Memory.readBlock_write_image _ h _, fun x hx hxh => ?_⟩
  · rw [Memory.read_write_image_of_not_inSlot _ _ (not_inSlot_slotAddr hne (by decide)), Memory.read_write_byte_same]
  · rw [Memory.read_write_image_of_not_inSlot _ _ hxh, Memory.read_write_byte_ne _ _ hx]

end Sys2Proof.Machine
end

section
/-! PROOFS of the statements about the row serializer (spec/43_matrix_driver.md, spec/30_encoding.md section 1). -/

namespace Sys2Proof.Machine

/-! ## Line micro-operations (R176 to R179, R187) -/

theorem level_after_set_same (ls : Lines) (l : Line) (v : Level) : Lines.level (Lines.after ls (.set l v)) l = v := by
  cases l with
  | row i => exact Vector.getElem_set_self i.isLt
  | sb | lat | rst | sck | sda => rfl

theorem level_after_set_ne (ls : Lines) {l l' : Line} (h : l' ≠ l) (v : Level) :
    Lines.level (Lines.after ls (.set l v)) l' = Lines.level ls l' := by
  cases l with
  | row i =>
    cases l' with
    | row j => exact Vector.getElem_set_ne i.isLt j.isLt fun hij => h (congrArg Line.row (Fin.ext hij.symm))
    | sb | lat | rst | sck | sda => rfl
  | sb | lat | rst | sck | sda => cases l' <;> first | rfl | contradiction

/-- Settles O37: each operation is the emission of one or two events. -/
theorem lineMicroOperations : Obligations.LineMicroOperations := fun s hs =>
  ⟨fun l v => ⟨Lines.after s.lines (.set l v), live_of_ne hs, level_after_set_same s.lines l v,
    fun _ h => level_after_set_ne s.lines h v⟩, live_of_ne hs, live_of_ne hs, fun _ => live_of_ne hs⟩

/-- Settles O44: the row is tested before any line is written. -/
theorem badRowIsFatal : Obligations.BadRowIsFatal := by
  intro s row px hs hrow
  obtain ⟨_, hraise⟩ | ⟨hlow, hhigh, _⟩ := sendRow_cases row px s
  · exact live_raise hs hraise
  · omega

theorem sendRow_fin (row : Fin 8) (px : RowPixels) (s : State) :
    sendRow row.val px s = .ok () (s.emit (rowEvents row (px.map gammaColor))) := by
  obtain ⟨hrow, _⟩ | ⟨_, _, hok⟩ := sendRow_cases row.val px s
  · omega
  · rw [hok, Int.toNat_natCast, Fin.ofNat_val_eq_self]

/-! ## The order of the bits on the wire (R94, R182) -/

/-- Which bit of which channel of which pixel is sent as bit number `t` of the row frame (R94). -/
def wireBit (t : Nat) : Fin 8 × Channel × Nat :=
  (⟨7 - t / 8 / 3, by omega⟩, if t / 8 % 3 = 0 then .b else if t / 8 % 3 = 1 then .g else .r, 7 - t % 8)

theorem rowBit_eq (g : RowPixels) (t : Nat) :
    rowBit g t = (g[(wireBit t).1].channel (wireBit t).2.1).getLsbD (wireBit t).2.2 := rfl

/-- The steps that send one bit: the data line, then a clock pulse (R181). -/
def bitSeq {β : Type} (sda : Fin 8 → Channel → Nat → β) (ev : LineEvent → β) (b : Fin 8 × Channel × Nat) : List β :=
  sda b.1 b.2.1 b.2.2 :: sckPulse.map ev

/-- The bits of one pixel in shift order: blue, green, red, each MSB first (R181, R182). -/
def pixelBits (i : Fin 8) : List (Fin 8 × Channel × Nat) := wireOrder.flatMap fun ch => msbFirst.map fun k => (i, ch, k)

theorem flatMap_byteSeq {β : Type} (sda : Fin 8 → Channel → Nat → β) (ev : LineEvent → β) (i : Fin 8) :
    (wireOrder.flatMap fun ch => byteSeq (sda i ch) ev) = (pixelBits i).flatMap (bitSeq sda ev) := by
  rw [pixelBits, List.flatMap_assoc]
  simp only [byteSeq, List.flatMap_map]
  rfl

/-- Before the deactivation, after pixel 5, come the bits of pixels 7, 6, 5; they are bits 0 to 71. -/
theorem map_wireBit_range : (List.range 72).map wireBit = ([7, 6, 5] : List (Fin 8)).flatMap pixelBits := by decide +kernel

theorem map_wireBit_range' : (List.range' 72 120).map wireBit = ([4, 3, 2, 1, 0] : List (Fin 8)).flatMap pixelBits := by
  decide +kernel

/-- The line steps of SEND_ROW are those of bits 0 to 71, the deactivation of the previous row, those of bits 72 to 191, the latch
pulse, and the activation (R182, R183, R184). -/
theorem rowSeq_eq {β : Type} (row : Fin 8) (sda : Fin 8 → Channel → Nat → β) (ev : LineEvent → β) :
    rowSeq row sda ev =
      ((List.range 72).map wireBit).flatMap (bitSeq sda ev) ++ ev (.set (.row (row + 7)) false) ::
        (((List.range' 72 120).map wireBit).flatMap (bitSeq sda ev) ++
          (latPulse.map ev ++ [ev (.set (.row row) true)])) := by
  rw [map_wireBit_range, map_wireBit_range', List.flatMap_assoc, List.flatMap_assoc]
  simp [rowSeq, flatMap_byteSeq, pixelOrder, Config.deactAfterPixel]

/-! ## Sending bits -/

/-- The events that send these bits: each is written to SDA, then the clock is pulsed (R181). -/
def shiftOut (bits : List Level) : List LineEvent := bits.flatMap fun b => .set .sda b :: sckPulse

theorem shiftOut_cons (b : Level) (bits : List Level) :
    shiftOut (b :: bits) = .set .sda b :: .set .sck (!Config.sckIdle) :: .set .sck Config.sckIdle :: shiftOut bits := rfl

@[simp] theorem length_shiftOut (bits : List Level) : (shiftOut bits).length = 3 * bits.length := by
  induction bits with
  | nil => rfl
  | cons b bits ih => rw [shiftOut_cons, List.length_cons, List.length_cons, List.length_cons, ih, List.length_cons]; omega

/-- Bit number t is sent by the events 3*t to 3*t+2. -/
theorem getElem?_shiftOut {bits : List Level} {t : Nat} {b : Level} (h : bits[t]? = some b) :
    (shiftOut bits)[3 * t]? = some (.set .sda b) ∧ (shiftOut bits)[3 * t + 1]? = some (.set .sck (!Config.sckIdle)) ∧
      (shiftOut bits)[3 * t + 2]? = some (.set .sck Config.sckIdle) := by
  induction bits generalizing t with
  | nil => cases h
  | cons c bits ih =>
    cases t with
    | zero =>
      obtain rfl : c = b := by simpa using h
      exact ⟨rfl, rfl, rfl⟩
    | succ t => exact ih (by simpa using h)

/-- Sending bits writes SDA and SCK alone. -/
theorem set_mem_shiftOut {bits : List Level} {l : Line} {v : Level} (h : LineEvent.set l v ∈ shiftOut bits) :
    l = .sda ∨ l = .sck := by
  induction bits with
  | nil => cases h
  | cons b bits ih =>
    simp only [shiftOut_cons, List.mem_cons, LineEvent.set.injEq] at h
    obtain ⟨rfl, _⟩ | ⟨rfl, _⟩ | ⟨rfl, _⟩ | h := h
    · exact .inl rfl
    · exact .inr rfl
    · exact .inr rfl
    · exact ih h

/-- Sending bits, one at least, leaves SCK idle and every line but SDA as it was. -/
theorem afterAll_shiftOut (ls : Lines) {bits : List Level} (h : bits ≠ []) :
    ∃ v, Lines.afterAll ls (shiftOut bits) = { ls with sda := v, sck := Config.sckIdle } := by
  induction bits generalizing ls with
  | nil => exact absurd rfl h
  | cons b bits ih =>
    cases bits with
    | nil => exact ⟨b, rfl⟩
    | cons c bits => exact ih { ls with sda := b, sck := Config.sckIdle } (List.cons_ne_nil c bits)

/-- The bits sent are the bits shifted (R98). -/
theorem shiftedBits_shiftOut (sda : Level) (bits : List Level) : shiftedBits sda (shiftOut bits) = bits := by
  induction bits generalizing sda with
  | nil => rfl
  | cons b bits ih => exact congrArg (b :: ·) (ih b)

/-! ## The events of a row (R182 to R186) -/

/-- The bits of the row frame sent before the deactivation of the previous row, and those sent after it. -/
def bitsBefore (g : RowPixels) : List Level := (List.range 72).map (rowBit g)
def bitsAfter (g : RowPixels) : List Level := (List.range' 72 120).map (rowBit g)

@[simp] theorem length_bitsBefore (g : RowPixels) : (bitsBefore g).length = 72 := by simp [bitsBefore]
@[simp] theorem length_bitsAfter (g : RowPixels) : (bitsAfter g).length = 120 := by simp [bitsAfter]

theorem bitsBefore_append_bitsAfter (g : RowPixels) :
    bitsBefore g ++ bitsAfter g = (List.range 192).map (rowBit g) := by
  rw [bitsBefore, bitsAfter, ← List.map_append, List.range_eq_range', List.range'_append_1, List.range_eq_range']

theorem bitsBefore_ne_nil (g : RowPixels) : bitsBefore g ≠ [] := List.ne_nil_of_length_pos (by simp)
theorem bitsAfter_ne_nil (g : RowPixels) : bitsAfter g ≠ [] := List.ne_nil_of_length_pos (by simp)

/-- SEND_ROW: 72 bits, the deactivation, 120 bits, the latch pulse, the activation (R182, R183, R184). -/
theorem rowEvents_eq (row : Fin 8) (g : RowPixels) :
    rowEvents row g = shiftOut (bitsBefore g) ++ .set (.row (row + 7)) false ::
      (shiftOut (bitsAfter g) ++ (latPulse ++ [.set (.row row) true])) := by
  rw [rowEvents, rowSeq_eq, bitsBefore, bitsAfter, shiftOut, shiftOut]
  simp only [List.flatMap_map, List.map_id, id]
  rfl

@[simp] theorem length_rowEvents (row : Fin 8) (g : RowPixels) : (rowEvents row g).length = 580 := by
  simp [rowEvents_eq, latPulse]

theorem exec_sendRow {s : State} (hs : s.phase ≠ .halted) (row : Fin 8) (px : RowPixels) :
    exec (.sendRow row.val px) s = .next (s.emit (rowEvents row (px.map gammaColor))) :=
  (live_of_ne hs).trans (by rw [sendRow_fin, Res.outcome_ok])

/-- Bit `t` is among the first 72, or it is bit `t - 72` of the others. -/
theorem getElem?_bitsBefore (g : RowPixels) {t : Nat} (ht : t < 72) : (bitsBefore g)[t]? = some (rowBit g t) := by
  simp [bitsBefore, ht]

theorem getElem?_bitsAfter (g : RowPixels) {t : Nat} (ht : t < 120) :
    (bitsAfter g)[t]? = some (rowBit g (72 + t)) := by
  simp [bitsAfter, ht]

/-- Event number `217 + n` is event `n` after the deactivation. -/
theorem getElem?_rowEvents_add (row : Fin 8) (g : RowPixels) (n : Nat) :
    (rowEvents row g)[217 + n]? = (shiftOut (bitsAfter g) ++ (latPulse ++ [.set (.row row) true]))[n]? := by
  rw [rowEvents_eq, List.getElem?_append_right (by simp; omega), length_shiftOut, length_bitsBefore,
    show 217 + n - 3 * 72 = n + 1 by omega, List.getElem?_cons_succ]

/-- Bit `t` below 72 is sent by the events 3*t to 3*t+2. -/
theorem getElem?_rowEvents_before (row : Fin 8) (g : RowPixels) {t : Nat} (ht : t < 72) :
    (rowEvents row g)[3 * t]? = some (.set .sda (rowBit g t)) ∧
      (rowEvents row g)[3 * t + 1]? = some (.set .sck (!Config.sckIdle)) ∧
      (rowEvents row g)[3 * t + 2]? = some (.set .sck Config.sckIdle) := by
  have hlen : (shiftOut (bitsBefore g)).length = 216 := by simp
  rw [rowEvents_eq, List.getElem?_append_left (by omega), List.getElem?_append_left (by omega),
    List.getElem?_append_left (by omega)]
  exact getElem?_shiftOut (getElem?_bitsBefore g ht)

/-- From bit 72 on the deactivation shifts the events by one. -/
theorem getElem?_rowEvents_after (row : Fin 8) (g : RowPixels) {t : Nat} (hlow : 72 ≤ t) (hhigh : t < 192) :
    (rowEvents row g)[3 * t + 1]? = some (.set .sda (rowBit g t)) ∧
      (rowEvents row g)[3 * t + 2]? = some (.set .sck (!Config.sckIdle)) ∧
      (rowEvents row g)[3 * t + 3]? = some (.set .sck Config.sckIdle) := by
  obtain ⟨k, rfl⟩ := Nat.exists_eq_add_of_le hlow
  have hlen : (shiftOut (bitsAfter g)).length = 360 := by simp
  rw [show 3 * (72 + k) + 1 = 217 + 3 * k by omega, show 3 * (72 + k) + 2 = 217 + (3 * k + 1) by omega,
    show 3 * (72 + k) + 3 = 217 + (3 * k + 2) by omega, getElem?_rowEvents_add, getElem?_rowEvents_add,
    getElem?_rowEvents_add, List.getElem?_append_left (by omega), List.getElem?_append_left (by omega),
    List.getElem?_append_left (by omega)]
  exact getElem?_shiftOut (getElem?_bitsAfter g (by omega))

/-- After the last bit come the latch pulse and the activation. -/
theorem getElem?_rowEvents_tail (row : Fin 8) (g : RowPixels) (n : Nat) :
    (rowEvents row g)[577 + n]? = (latPulse ++ [.set (.row row) true])[n]? := by
  rw [show 577 + n = 217 + (360 + n) by omega, getElem?_rowEvents_add, List.getElem?_append_right (by simp)]
  simp

theorem getElem?_rowEvents_216 (row : Fin 8) (g : RowPixels) :
    (rowEvents row g)[216]? = some (.set (.row (row + 7)) false) := by
  rw [rowEvents_eq, List.getElem?_append_right (by simp)]
  simp

/-- Settles O40: the positions follow from the lengths of the parts of the sequence. -/
theorem sendRowEventPositions : Obligations.SendRowEventPositions := fun s row px hs =>
  ⟨rowEvents row (px.map gammaColor), Lines.afterAll s.lines (rowEvents row (px.map gammaColor)), px.map gammaColor,
    exec_sendRow hs row px, rfl, rfl,
    fun i ch => by rw [Fin.getElem_fin, Vector.getElem_map]; exact toNat_channel_gammaColor _ ch,
    length_rowEvents row _, fun _ => getElem?_rowEvents_before row _, getElem?_rowEvents_216 row _,
    fun _ => getElem?_rowEvents_after row _, getElem?_rowEvents_tail row _ 0, getElem?_rowEvents_tail row _ 1,
    getElem?_rowEvents_tail row _ 2⟩

/-! ## The lines after a row (R182, R183, R184, R189) -/

/-- SEND_ROW leaves the previous row dark and its own lit, SCK and LAT idle, and the last bit on SDA. -/
theorem afterAll_rowEvents (ls : Lines) (row : Fin 8) (g : RowPixels) :
    ∃ v, Lines.afterAll ls (rowEvents row g) = { ls with
      sda := v, sck := Config.sckIdle, lat := Config.latIdle
      rows := (ls.rows.set (row + 7 : Fin 8).val false (row + 7).isLt).set row true row.isLt } := by
  obtain ⟨v, hv⟩ := afterAll_shiftOut ls (bitsBefore_ne_nil g)
  obtain ⟨w, hw⟩ := afterAll_shiftOut (Lines.after { ls with sda := v, sck := Config.sckIdle } (.set (.row (row + 7)) false))
    (bitsAfter_ne_nil g)
  refine ⟨w, ?_⟩
  rw [rowEvents_eq, afterAll_append, hv, Lines.afterAll, List.foldl_cons, ← Lines.afterAll, afterAll_append, hw]
  rfl

/-- Settles O41. -/
theorem sendRowLeavesTheLines : Obligations.SendRowLeavesTheLines := by
  intro ls row g
  obtain ⟨v, hv⟩ := afterAll_rowEvents ls row g
  have hne : (row : Nat) ≠ (row + 7 : Fin 8) := by omega
  simp only [hv, Fin.getElem_fin, and_self, and_true]
  refine ⟨Vector.getElem_set_self _, ?_, fun i hi hi' => ?_⟩
  · rw [Vector.getElem_set_ne _ _ hne, Vector.getElem_set_self]
  · rw [Vector.getElem_set_ne _ _ (fun h => hi (Fin.ext h.symm)), Vector.getElem_set_ne _ _ (fun h => hi' (Fin.ext h.symm))]

/-! ## At most one row (R185) -/

/-- Events that write no row line leave the rows. -/
theorem rows_afterAll (ls : Lines) {evs : List LineEvent} (h : ∀ i v, LineEvent.set (.row i) v ∉ evs) :
    (Lines.afterAll ls evs).rows = ls.rows := by
  induction evs generalizing ls with
  | nil => rfl
  | cons e evs ih =>
    have hrest := ih (Lines.after ls e) fun i v hm => h i v (List.mem_cons_of_mem e hm)
    refine hrest.trans ?_
    cases e with
    | delay n => rfl
    | set l v =>
      cases l with
      | row i => exact absurd List.mem_cons_self (h i v)
      | sb | lat | rst | sck | sda => rfl

theorem set_row_notMem_shiftOut (bits : List Level) (i : Fin 8) (v : Level) :
    LineEvent.set (.row i) v ∉ shiftOut bits := fun h => nomatch set_mem_shiftOut h

/-- Up to the deactivation the rows are as before. -/
theorem rows_take_rowEvents_of_le (ls : Lines) (row : Fin 8) (g : RowPixels) {n : Nat} (hn : n ≤ 216) :
    (Lines.afterAll ls ((rowEvents row g).take n)).rows = ls.rows := by
  rw [rowEvents_eq, List.take_append_of_le_length (by simpa using hn)]
  exact rows_afterAll ls fun i v hm => set_row_notMem_shiftOut _ i v (List.mem_of_mem_take hm)

/-- From the deactivation to the activation the previous row is dark and the others are as before. -/
theorem rows_take_rowEvents_of_lt (ls : Lines) (row : Fin 8) (g : RowPixels) {n : Nat} (hlow : 217 ≤ n) (hn : n < 580) :
    (Lines.afterAll ls ((rowEvents row g).take n)).rows = ls.rows.set (row + 7 : Fin 8).val false (row + 7).isLt := by
  obtain ⟨k, rfl⟩ := Nat.exists_eq_add_of_le hlow
  have htake : (rowEvents row g).take (217 + k) =
      shiftOut (bitsBefore g) ++ .set (.row (row + 7)) false :: (shiftOut (bitsAfter g) ++ latPulse).take k := by
    rw [rowEvents_eq, List.take_append, List.take_of_length_le (by simp; omega), length_shiftOut, length_bitsBefore,
      show 217 + k - 3 * 72 = k + 1 by omega, List.take_succ_cons, ← List.append_assoc,
      List.take_append_of_le_length (by simp [latPulse]; omega)]
  have hquiet : ∀ i v, LineEvent.set (.row i) v ∉ (shiftOut (bitsAfter g) ++ latPulse).take k := fun i v hm => by
    have := List.mem_of_mem_take hm
    simp [set_row_notMem_shiftOut, latPulse] at this
  rw [htake, afterAll_append, Lines.afterAll, List.foldl_cons, ← Lines.afterAll, rows_afterAll _ hquiet]
  exact congrArg (fun rows : Vector Level 8 => rows.set (row + 7 : Fin 8).val false (row + 7).isLt)
    (rows_afterAll ls (set_row_notMem_shiftOut _))

/-- Settles O42: the rows change at the deactivation and at the activation only. -/
theorem atMostOneRowAtEveryInstant : Obligations.AtMostOneRowAtEveryInstant := by
  intro ls row g n hlit
  have hdark : ∀ i : Fin 8, (ls.rows.set (row + 7 : Fin 8).val false (row + 7).isLt)[i] = false := fun i => by
    rw [Fin.getElem_fin, Vector.getElem_set]
    split
    · rfl
    · next hne => exact Bool.eq_false_iff.mpr fun h => hne (congrArg Fin.val (hlit i h)).symm
  rcases Nat.lt_or_ge n 217 with hn | hlow
  · refine ⟨fun i j hi hj => ?_, fun h => by omega⟩
    rw [rows_take_rowEvents_of_le ls row g (by omega)] at hi hj
    exact (hlit i hi).trans (hlit j hj).symm
  rcases Nat.lt_or_ge n 580 with hn | hhigh
  · rw [AtMostOneRow, rows_take_rowEvents_of_lt ls row g hlow hn]
    exact ⟨fun i _ hi => (nomatch (hdark i).symm.trans hi), fun _ _ => hdark⟩
  · obtain ⟨v, hv⟩ := afterAll_rowEvents ls row g
    have hrow : ∀ i : Fin 8, ((ls.rows.set (row + 7 : Fin 8).val false (row + 7).isLt).set row true row.isLt)[i] = true → i = row :=
      fun i hi => by
        rw [Fin.getElem_fin, Vector.getElem_set] at hi
        split at hi
        · next h => exact Fin.ext h.symm
        · exact nomatch (hdark i).symm.trans hi
    rw [List.take_of_length_le (by simpa using hhigh), hv]
    exact ⟨fun i j hi hj => (hrow i hi).trans (hrow j hj).symm, fun _ h => absurd h (Nat.not_lt.mpr hhigh)⟩

/-! ## The frame on the wire (R94, R98) -/

/-- Every write that takes a line away from its idle level finds it there. -/
def StartsIdle (l : Line) (idle : Level) (ls : Lines) : List LineEvent → Prop
  | [] => True
  | e :: evs => (e = .set l (!idle) → Lines.level ls l = idle) ∧ StartsIdle l idle (Lines.after ls e) evs

theorem startsIdle_append {l : Line} {idle : Level} {ls : Lines} {a b : List LineEvent} (ha : StartsIdle l idle ls a)
    (hb : StartsIdle l idle (Lines.afterAll ls a) b) : StartsIdle l idle ls (a ++ b) := by
  induction a generalizing ls with
  | nil => exact hb
  | cons e a ih => exact ⟨ha.1, ih ha.2 hb⟩

theorem startsIdle_of_notMem {l : Line} {idle : Level} (ls : Lines) {evs : List LineEvent}
    (h : LineEvent.set l (!idle) ∉ evs) : StartsIdle l idle ls evs := by
  induction evs generalizing ls with
  | nil => trivial
  | cons e evs ih =>
    rw [List.mem_cons, not_or] at h
    exact ⟨fun he => absurd he.symm h.1, ih _ h.2⟩

theorem startsIdle_sck_shiftOut {ls : Lines} (bits : List Level) (h : ls.sck = Config.sckIdle) :
    StartsIdle .sck Config.sckIdle ls (shiftOut bits) := by
  induction bits generalizing ls with
  | nil => trivial
  | cons b bits ih =>
    rw [shiftOut_cons]
    exact ⟨nofun, fun _ => h, nofun, ih rfl⟩

/-- The clock is idle wherever SEND_ROW pulses it. -/
theorem startsIdle_sck_rowEvents {ls : Lines} (row : Fin 8) (g : RowPixels) (h : ls.sck = Config.sckIdle) :
    StartsIdle .sck Config.sckIdle ls (rowEvents row g) := by
  obtain ⟨v, hv⟩ := afterAll_shiftOut ls (bitsBefore_ne_nil g)
  rw [rowEvents_eq]
  refine startsIdle_append (startsIdle_sck_shiftOut _ h) ⟨nofun, startsIdle_append (startsIdle_sck_shiftOut _ ?_) ?_⟩
  · rw [hv]; rfl
  · exact startsIdle_of_notMem _ (by simp [latPulse])

theorem set_lat_notMem_shiftOut (bits : List Level) (v : Level) : LineEvent.set .lat v ∉ shiftOut bits :=
  fun h => nomatch set_mem_shiftOut h

/-- LAT is idle where SEND_ROW pulses it. -/
theorem startsIdle_lat_rowEvents {ls : Lines} (row : Fin 8) (g : RowPixels) (h : ls.lat = Config.latIdle) :
    StartsIdle .lat Config.latIdle ls (rowEvents row g) := by
  obtain ⟨v, hv⟩ := afterAll_shiftOut ls (bitsBefore_ne_nil g)
  obtain ⟨w, hw⟩ := afterAll_shiftOut (Lines.after { ls with sda := v, sck := Config.sckIdle } (.set (.row (row + 7)) false))
    (bitsAfter_ne_nil g)
  rw [rowEvents_eq]
  refine startsIdle_append (startsIdle_of_notMem _ (set_lat_notMem_shiftOut _ _)) ⟨nofun, ?_⟩
  rw [hv]
  refine startsIdle_append (startsIdle_of_notMem _ (set_lat_notMem_shiftOut _ _)) ?_
  rw [hw]
  exact ⟨fun _ => h, nofun, nofun, trivial⟩

/-- A write of the level that a line has changes nothing. -/
theorem after_set_level (ls : Lines) (l : Line) : Lines.after ls (.set l (Lines.level ls l)) = ls := by
  cases l with
  | row i => simp [Lines.after, Lines.level]
  | sb | lat | rst | sck | sda => rfl

/-- Deleting the writes that change nothing deletes no clock event of a clock that starts idle. -/
theorem shiftedBits_visible {ls : Lines} {evs : List LineEvent} (h : StartsIdle .sck Config.sckIdle ls evs) :
    shiftedBits ls.sda (visible ls evs) = shiftedBits ls.sda evs := by
  induction evs generalizing ls with
  | nil => rfl
  | cons e evs ih =>
    have hrest := ih h.2
    cases e with
    | delay n => exact hrest
    | set l v =>
      rw [visible]
      split
      · next hv =>
        subst hv
        rw [after_set_level] at hrest
        cases l with
        | sck =>
          have hidle : ls.sck ≠ !Config.sckIdle := fun he => by
            have := h.1 (by rw [Lines.level, he])
            rw [Lines.level, he] at this
            exact Bool.not_ne_self _ this
          rw [hrest, shiftedBits, Lines.level, if_neg hidle]
        | sb | lat | rst | sda | row i => exact hrest
      · cases l with
        | sck =>
          simp only [shiftedBits]
          split
          · exact congrArg _ hrest
          · exact hrest
        | sb | lat | rst | sda | row i => exact hrest

/-- Nor does it delete a latch pulse of a LAT that starts idle. -/
theorem committedFrames_visible {ls : Lines} {evs : List LineEvent} (bits : List Level)
    (hsck : StartsIdle .sck Config.sckIdle ls evs) (hlat : StartsIdle .lat Config.latIdle ls evs) :
    committedFrames ls.sda bits (visible ls evs) = committedFrames ls.sda bits evs := by
  induction evs generalizing ls bits with
  | nil => rfl
  | cons e evs ih =>
    have hrest := fun bits => ih bits hsck.2 hlat.2
    cases e with
    | delay n => exact hrest bits
    | set l v =>
      rw [visible]
      split
      · next hv =>
        subst hv
        rw [after_set_level] at hrest
        cases l with
        | sck =>
          have hidle : ls.sck ≠ !Config.sckIdle := fun he => by
            have := hsck.1 (by rw [Lines.level, he])
            rw [Lines.level, he] at this
            exact Bool.not_ne_self _ this
          rw [hrest, committedFrames, Lines.level, if_neg hidle]
        | lat =>
          have hidle : ls.lat ≠ !Config.latIdle := fun he => by
            have := hlat.1 (by rw [Lines.level, he])
            rw [Lines.level, he] at this
            exact Bool.not_ne_self _ this
          rw [hrest, committedFrames, Lines.level, if_neg hidle]
        | sb | rst | sda | row i => exact hrest bits
      · cases l with
        | sck =>
          simp only [committedFrames]
          split
          · exact hrest (bits ++ [ls.sda])
          · exact hrest bits
        | lat =>
          simp only [committedFrames]
          split
          · exact congrArg _ (hrest [])
          · exact hrest bits
        | sb | rst | sda | row i => exact hrest bits

/-- SEND_ROW up to its latch pulse. -/
def frameEvents (row : Fin 8) (g : RowPixels) : List LineEvent :=
  shiftOut (bitsBefore g) ++ .set (.row (row + 7)) false :: shiftOut (bitsAfter g)

theorem rowEvents_eq_frameEvents (row : Fin 8) (g : RowPixels) :
    rowEvents row g = frameEvents row g ++ (latPulse ++ [.set (.row row) true]) := by
  rw [rowEvents_eq, frameEvents, List.append_assoc, List.cons_append]

/-- The row frame is shifted in two parts; between them no clock event stands. -/
theorem shiftedBits_frameEvents (ls : Lines) (row : Fin 8) (g : RowPixels) :
    shiftedBits ls.sda (frameEvents row g) = (List.range 192).map (rowBit g) := by
  have hquiet (sda : Level) (evs : List LineEvent) :
      shiftedBits sda (.set (.row (row + 7)) false :: evs) = shiftedBits sda evs := rfl
  rw [frameEvents, shiftedBits_append, shiftedBits_shiftOut, hquiet, shiftedBits_shiftOut, bitsBefore_append_bitsAfter]

theorem set_lat_notMem_frameEvents (row : Fin 8) (g : RowPixels) (v : Level) :
    LineEvent.set .lat v ∉ frameEvents row g := by
  simp [frameEvents, set_lat_notMem_shiftOut]

/-- The latch pulse and the activation shift nothing more. -/
theorem shiftedBits_rowEvents (ls : Lines) (row : Fin 8) (g : RowPixels) :
    shiftedBits ls.sda (rowEvents row g) = (List.range 192).map (rowBit g) := by
  rw [rowEvents_eq_frameEvents, shiftedBits_append, shiftedBits_frameEvents]
  exact List.append_nil _

/-- No LAT is written before the latch pulse, which commits the whole row frame. -/
theorem committedFrames_rowEvents (ls : Lines) (row : Fin 8) (g : RowPixels) :
    committedFrames ls.sda [] (rowEvents row g) = [(List.range 192).map (rowBit g)] := by
  rw [rowEvents_eq_frameEvents, committedFrames_no_lat ls _ _ _ (set_lat_notMem_frameEvents row g),
    shiftedBits_frameEvents]
  rfl

/-- Settles O43: the row frame is what SEND_ROW shifts, and deleting writes that change nothing loses no pulse. -/
theorem rowShiftsItsFrame : Obligations.RowShiftsItsFrame := by
  intro ls row g hsck
  have hclock := startsIdle_sck_rowEvents row g hsck
  refine ⟨shiftedBits_rowEvents ls row g, ?_, committedFrames_rowEvents ls row g, fun hlat => ?_⟩
  · rw [shiftedBits_visible hclock, shiftedBits_rowEvents]
  · rw [committedFrames_visible [] hclock (startsIdle_lat_rowEvents row g hlat), committedFrames_rowEvents]

end Sys2Proof.Machine
end

section
/-! PROOFS of the statements about the dispatcher, critical sections, the moves of ENV and HALTED (spec/60_exceptions.md). -/

namespace Sys2Proof.Machine

/-! ## The step, by the stimulus (R264) -/

/-- What executing a plan answers. -/
def Plan.run : Plan → Result
  | .exec i s => Machine.exec i s
  | .done o => o

theorem step_eq_run (s : State) : step s = (stepPlan s).run := rfl

/-- By itself the block makes its coarse move. -/
theorem step_of_stim_nil {s : State} (h : s.stim = []) (hp : s.phase ≠ .halted) : step s = (coarsePlan s).run := by
  simp [step_eq_run, stepPlan, h, hp]

theorem step_of_halted {s : State} (h : s.stim = []) (hp : s.phase = .halted) : step s = .fault (.halted s.fatal) := by
  simp [step_eq_run, stepPlan, h, hp, Plan.run]

theorem step_of_stim_env {s : State} {m : EnvMove} {r : List Stim} (h : s.stim = .env m :: r) :
    step s = (envPlan m { s with stim := r }).run := by
  simp [step_eq_run, stepPlan, h]

theorem step_of_stim_tick {s : State} {r : List Stim} (h : s.stim = .tick :: r) :
    step s = (finePlan { s with stim := r }).run := by
  simp [step_eq_run, stepPlan, h]

/-- On the way to quiescence the block makes its coarse move. -/
theorem step_of_stim_settle {s : State} {r : List Stim} (h : s.stim = .settle :: r) (hd : dispatch s ≠ .idle) :
    step s = (coarsePlan s).run := by
  simp [step_eq_run, stepPlan, h, hd]

/-- Once quiescent, the block goes on with the stimulus. -/
theorem step_of_stim_settle_idle {s : State} {r : List Stim} (h : s.stim = .settle :: r) (hd : dispatch s = .idle) :
    step s = .next { s with stim := r } := by
  simp [step_eq_run, stepPlan, h, hd, Plan.run]

/-! ## The effective priority (R258, R262) -/

theorem eff_of_rest {s : State} (ha : s.acts = []) (hl : s.locks = []) : s.eff = 0 := by
  simp [State.eff, State.runningPriority, ha, hl]

theorem eff_of_acts_cons {s : State} {a : Activation} {rest : List Activation} (ha : s.acts = a :: rest)
    (hl : s.locks = []) : s.eff = priority a.agent := by
  simp [State.eff, State.runningPriority, ha, hl]

theorem eff_enterLock (who : Agent) (cells : List Shared) (s : State) :
    (s.enterLock who cells).eff = max s.eff (ceiling cells) := by
  simp only [State.eff, enterLock_locks, List.map_cons, List.foldr_cons, ← max_assoc]
  rw [max_right_comm]
  rfl

/-- The ceiling of a set is at least that of each of its cells (R262). -/
theorem ceilingOf_le_ceiling {x : Shared} {cells : List Shared} (h : x ∈ cells) : ceilingOf x ≤ ceiling cells := by
  induction cells with
  | nil => cases h
  | cons y ys ih =>
    rcases List.mem_cons.mp h with rfl | h
    · exact le_max_left _ _
    · exact (ih h).trans (le_max_right _ _)

theorem ceilingOf_le_eff_enterLock {x : Shared} {cells : List Shared} (who : Agent) (s : State) (h : x ∈ cells) :
    ceilingOf x ≤ (s.enterLock who cells).eff :=
  (eff_enterLock who cells s).symm ▸ (ceilingOf_le_ceiling h).trans (le_max_right _ _)

/-! ## The dispatcher (R258, R261) -/

theorem dispatch_off {s : State} (hp : s.phase = .off) : dispatch s = .start .boot := by
  rw [dispatch, hp]

theorem dispatch_init {s : State} (hp : s.phase = .init) : dispatch s = resumeOrIdle s := by
  rw [dispatch, hp]

theorem dispatch_halted {s : State} (hp : s.phase = .halted) : dispatch s = .idle := by
  rw [dispatch, hp]

/-- A byte waiting comes first below priority 3 (R258). -/
theorem dispatch_rx {s : State} (hp : s.phase = .run) (hf : s.rxFifo ≠ []) (he : s.eff < 3) :
    dispatch s = .start .rx := by
  simp [dispatch, hp, State.rxReady, hf, priority, he]

/-- In RUN with no byte waiting, the ticks come next, then the completions (R258). -/
theorem dispatch_run {s : State} (hp : s.phase = .run) (hf : s.rxFifo = []) :
    dispatch s =
      if s.dispDue = true ∧ s.saverDue = true ∧ s.eff < 2 then .tie
      else if s.dispDue = true ∧ s.eff < 2 then .start .disp
      else if s.saverDue = true ∧ s.eff < 2 then .start .saver
      else if 0 < s.noticePending ∧ s.eff < 1 then .start .notice
      else resumeOrIdle s := by
  simp [dispatch, hp, State.rxReady, hf, priority]

/-- Nothing preempts level 3 (R258). -/
theorem dispatch_of_three_le_eff {s : State} (hp : s.phase = .run) (he : 3 ≤ s.eff) : dispatch s = resumeOrIdle s := by
  have h3 : ¬ s.eff < 3 := by omega
  have h2 : ¬ s.eff < 2 := by omega
  have h1 : ¬ s.eff < 1 := by omega
  simp [dispatch, hp, priority, h3, h2, h1]

/-- RX alone preempts level 2 (R258). -/
theorem dispatch_of_two_le_eff {s : State} (hp : s.phase = .run) (he : 2 ≤ s.eff) :
    dispatch s = .start .rx ∨ dispatch s = resumeOrIdle s := by
  have h2 : ¬ s.eff < 2 := by omega
  have h1 : ¬ s.eff < 1 := by omega
  by_cases hrx : s.rxReady = true ∧ s.eff < 3
  · exact .inl (by simp [dispatch, hp, priority, hrx])
  · exact .inr (by simp [dispatch, hp, priority, hrx, h2, h1])

theorem resumeOrIdle_cases (s : State) : resumeOrIdle s = .resume ∨ resumeOrIdle s = .idle := by
  unfold resumeOrIdle
  split
  · exact .inr rfl
  · exact .inl rfl

theorem resumeOrIdle_cons {s : State} {a : Activation} {rest : List Activation} (h : s.acts = a :: rest) :
    resumeOrIdle s = .resume := by
  simp [resumeOrIdle, h]

theorem resumeOrIdle_nil {s : State} (h : s.acts = []) : resumeOrIdle s = .idle := if_pos h

/-- Settles O8: the ceiling of `next` and of the pool is 3, that of `changes` is 2. -/
theorem sectionsKeepActorsOut : Obligations.SectionsKeepActorsOut := by
  intro s who cells hp
  have htop (x : Shared) (hx : x ∈ cells) (h3 : 3 ≤ ceilingOf x) :
      dispatch (s.enterLock who cells) = .resume ∨ dispatch (s.enterLock who cells) = .idle := by
    rw [dispatch_of_three_le_eff (s := s.enterLock who cells) hp (h3.trans (ceilingOf_le_eff_enterLock who s hx))]
    exact resumeOrIdle_cases _
  refine ⟨fun h => h.elim (fun h => htop .next h le_rfl) (fun h => htop .pool h le_rfl), fun h => ?_⟩
  rcases dispatch_of_two_le_eff (s := s.enterLock who cells) hp (ceilingOf_le_eff_enterLock who s h) with hd | hd
  · exact .inl hd
  · rw [hd]
    exact .inr (resumeOrIdle_cases _)

/-- Settles O58. -/
theorem lockRaisesAndRestores : Obligations.LockRaisesAndRestores := by
  intro s who cells hs
  refine ⟨live_of_ne hs, eff_enterLock who cells s, ?_, fun hl => ?_, fun w cs rest hl hw => ?_⟩
  · exact (live_of_ne hs).trans (if_pos (beq_self_eq_true who))
  · exact (live_of_ne hs).trans (if_neg (by simp [ownsSection, hl]))
  · exact (live_of_ne hs).trans (if_neg (by simp [ownsSection, hl, hw]))

/-! ## The block moves (R258, R264) -/

/-- RX runs the operation its byte encodes, with the byte consumed (R200). -/
theorem run_rxPlan {s : State} {i : Instr} {rest : List Byte} (h : decode s.rxFifo = .ok (i, rest)) :
    (rxPlan s).run = exec i { s with rxFifo := rest } := by
  rw [rxPlan, h]
  rfl

theorem ne_nil_of_decode {bs rest : List Byte} {i : Instr} (h : decode bs = .ok (i, rest)) : bs ≠ [] := by
  rintro rfl
  cases h

/-- Where RX may start, every kind of step runs the received operation. -/
theorem step_receives {s : State} {i : Instr} {rest : List Byte} (hp : s.phase = .run) (he : s.eff < 3)
    (h : decode s.rxFifo = .ok (i, rest)) :
    (s.stim = [] → step s = exec i { s with rxFifo := rest }) ∧
    (∀ r, s.stim = .tick :: r → step s = exec i { s with rxFifo := rest, stim := r }) ∧
    (∀ r, s.stim = .settle :: r → step s = exec i { s with rxFifo := rest }) := by
  have hd : dispatch s = .start .rx := dispatch_rx hp (ne_nil_of_decode h) he
  have hcoarse : (coarsePlan s).run = exec i { s with rxFifo := rest } := by
    rw [coarsePlan, hd]
    exact run_rxPlan h
  refine ⟨fun hs => ?_, fun r hs => ?_, fun r hs => ?_⟩
  · rw [step_of_stim_nil hs (by simp [hp]), hcoarse]
  · have hd' : dispatch { s with stim := r } = .start .rx := hd
    rw [step_of_stim_tick hs, finePlan, hd']
    exact run_rxPlan (s := { s with stim := r }) h
  · rw [step_of_stim_settle hs (by simp [hd]), hcoarse]

/-- An opcode-table word is one byte, which the decoder takes from the head of any sequence. -/
theorem decode_tableBytes {nbits w : Nat} {i : Instr} (h : decodeTableWord nbits w = some i) (rest : List Byte) :
    decode (tableBytes nbits w ++ rest) = .ok (i, rest) := by
  rw [decodeTableWord] at h
  split at h
  · cases h; rfl
  · cases h

/-- Settles O4: the fetched word is at the head of `rx_fifo`, where RX takes its operation. -/
theorem stepRunsReceivedOperation : Obligations.StepRunsReceivedOperation := by
  refine ⟨fun s i rest hp he h => step_receives hp he h, fun s w i h => ?_⟩
  have heff : (s.withFetchWord 8 w).eff = 0 := eff_of_rest rfl rfl
  exact (step_receives (s := s.withFetchWord 8 w) rfl (by omega) (decode_tableBytes h s.rxFifo)).1 rfl

theorem decodeByte_cases (b : Byte) : decodeByte b = .sync ∨ decodeByte b = .data b := by
  rw [decodeByte_eq]
  split
  · exact .inl rfl
  · exact .inr rfl

/-- RX_BYTE runs the received operation as the dispatcher does (R200). -/
theorem exec_rxByte {s : State} {b : Byte} {rest : List Byte} (hp : s.phase = .run) (hf : s.rxFifo = b :: rest) :
    exec .rxByte s = exec (decodeByte b) { s with rxFifo := rest } := by
  have hexec : exec .rxByte s = execRxByte s := rfl
  have hdecode : decode s.rxFifo = .ok (decodeByte b, rest) := by rw [hf]; rfl
  rw [hexec, execRxByte, live_of_ne (by simp [hp]), if_pos hp, hdecode]
  rcases decodeByte_cases b with h | h <;> rw [h] <;> rfl

/-- Settles O47. -/
theorem receiveByteRunsTheOperation : Obligations.ReceiveByteRunsTheOperation := by
  intro s b rest hp hf
  have hlive : ({ s with rxFifo := rest } : State).phase ≠ .halted := by simp [hp]
  refine ⟨fun hb => ?_, fun hb => ?_, fun hb hr => ?_⟩
  · rw [exec_rxByte hp hf, decodeByte_eq, if_pos hb, exec_sync hlive]
  · rw [exec_rxByte hp hf, decodeByte_eq, if_neg hb]
  · rw [exec_rxByte hp hf, decodeByte_eq, if_neg hb, exec_data hlive hb,
      dataByte_awaitingSync (s := { s with rxFifo := rest }) b hr, Res.outcome_ok]

/-- Between activations, the coarse move of the agent the dispatcher starts is that agent's whole activation. -/
theorem run_coarsePlan_start {s : State} {a : Agent} (hd : dispatch s = .start a) (ha : a ≠ .rx) :
    (coarsePlan s).run = exec (activationOf a) s := by
  rw [coarsePlan, hd]
  cases a with
  | rx => exact absurd rfl ha
  | boot | disp | saver | notice => rfl

/-- With both ticks due either activation may be the next, and one free choice is counted (R258, D13). -/
theorem run_coarsePlan_tie {s : State} (hd : dispatch s = .tie) :
    (coarsePlan s).run = exec .displayTick { s with draws := s.draws + 1 } ∨
      (coarsePlan s).run = exec .saverTick { s with draws := s.draws + 1 } := by
  rw [coarsePlan, hd]
  change (coarseStart (tieAgent s) _).run = _ ∨ (coarseStart (tieAgent s) _).run = _
  unfold tieAgent
  split
  · exact .inl rfl
  · exact .inr rfl

section CoarseMove
variable {s : State} (hp : s.phase = .run) (ha : s.acts = []) (hl : s.locks = [])
include hp ha hl

theorem run_coarsePlan_rx {b : Byte} {rest : List Byte} (hf : s.rxFifo = b :: rest) :
    (coarsePlan s).run = exec (decodeByte b) { s with rxFifo := rest } := by
  have heff := eff_of_rest ha hl
  rw [coarsePlan, dispatch_rx hp (by simp [hf]) (by omega)]
  exact run_rxPlan (by rw [hf]; rfl)

/-- The decision between activations with no byte waiting. -/
theorem dispatch_rest (hf : s.rxFifo = []) :
    dispatch s =
      if s.dispDue = true ∧ s.saverDue = true then .tie else if s.dispDue = true then .start .disp
      else if s.saverDue = true then .start .saver else if 0 < s.noticePending then .start .notice else .idle := by
  rw [dispatch_run hp hf, eff_of_rest ha hl, resumeOrIdle_nil ha]
  simp

end CoarseMove

/-- Settles O5: at rest the effective priority is 0, so that the first ready activation in the order of R258 starts. -/
theorem coarseBlockMove : Obligations.CoarseBlockMove := by
  intro s hs ha hl
  refine ⟨fun hp => ?_, fun hp => ?_⟩
  · rw [step_of_stim_nil hs (by simp [hp])]
    exact run_coarsePlan_start (dispatch_off hp) nofun
  · have hstep : step s = (coarsePlan s).run := step_of_stim_nil hs (by simp [hp])
    have hd (hf : s.rxFifo = []) := dispatch_rest hp ha hl hf
    refine ⟨fun hf => ?_, fun hf h1 h2 => ?_, fun hf h1 h2 => ?_, fun hf h1 h2 => ?_, fun hf h1 h2 h3 => ?_,
      fun hf h1 h2 h3 => ?_⟩
    · obtain ⟨b, rest, hb⟩ := List.exists_cons_of_ne_nil hf
      rw [hstep, run_coarsePlan_rx hp ha hl hb, exec_rxByte hp hb]
    · exact hstep.trans (run_coarsePlan_start (a := .disp) (by simp [hd hf, h1, h2]) nofun)
    · exact hstep.trans (run_coarsePlan_start (a := .saver) (by simp [hd hf, h1, h2]) nofun)
    · rw [hstep]
      exact run_coarsePlan_tie (by simp [hd hf, h1, h2])
    · exact hstep.trans (run_coarsePlan_start (a := .notice) (by simp [hd hf, h1, h2, h3]) nofun)
    · have hidle : dispatch s = .idle := by simp [hd hf, h1, h2, h3]
      rw [hstep, coarsePlan, hidle]
      rfl

theorem dispatch_disp {s : State} (hp : s.phase = .run) (hf : s.rxFifo = []) (h1 : s.dispDue = true)
    (h2 : s.saverDue = false) (he : s.eff < 2) : dispatch s = .start .disp := by
  simp [dispatch_run hp hf, h1, h2, he]

theorem dispatch_saver {s : State} (hp : s.phase = .run) (hf : s.rxFifo = []) (h1 : s.dispDue = false)
    (h2 : s.saverDue = true) (he : s.eff < 2) : dispatch s = .start .saver := by
  simp [dispatch_run hp hf, h1, h2, he]

/-- Settles O7: a NOTICE activation runs at level 1, below DISP and SAVER. -/
theorem preemptionKeepsTheContinuation : Obligations.PreemptionKeepsTheContinuation := by
  intro s a rest r hp hs ha hagent hl hf
  have heff : State.eff { s with stim := r } < 2 := by
    rw [eff_of_acts_cons (s := { s with stim := r }) ha hl, hagent]
    decide
  refine ⟨fun h1 h2 => ?_, fun h1 h2 => ?_⟩
  · rw [step_of_stim_tick hs, finePlan, dispatch_disp (s := { s with stim := r }) hp hf h1 h2 heff, ← ha]
    rfl
  · rw [step_of_stim_tick hs, finePlan, dispatch_saver (s := { s with stim := r }) hp hf h1 h2 heff, ← ha]
    rfl

/-! ## The moves of ENV (R264, R290, R294) -/

theorem running_eq_false_iff (w : Agent) (s : State) : running w s = false ↔ ∀ a ∈ s.acts, a.agent ≠ w := by
  simp [running]

theorem running_eq_true_iff (w : Agent) (s : State) : running w s = true ↔ ∃ a ∈ s.acts, a.agent = w := by
  simp [running]

/-- Outside RUN a move of ENV other than RESET is lost (R294, D24). -/
theorem run_envPlan_of_ne_run {s : State} {m : EnvMove} (hm : m ≠ .reset) (hp : s.phase ≠ .run) :
    (envPlan m s).run = .next s := by
  cases m with
  | reset => exact absurd rfl hm
  | deliver b => simp [envPlan, Plan.run, hp]
  | dispDue => simp [envPlan, Plan.run, hp]
  | saverDue => simp [envPlan, Plan.run, hp]

section InRun
variable {s : State} (hp : s.phase = .run)
include hp

theorem run_envPlan_deliver (b : Byte) : (envPlan (.deliver b) s).run = .next { s with rxFifo := s.rxFifo ++ [b] } := by
  simp [envPlan, Plan.run, hp]

theorem run_envPlan_dispDue (h : running .disp s = false) :
    (envPlan .dispDue s).run = .next { s with dispDue := true } := by
  simp [envPlan, Plan.run, hp, h]

theorem run_envPlan_saverDue (h : running .saver s = false) :
    (envPlan .saverDue s).run = .next { s with saverDue := true } := by
  simp [envPlan, Plan.run, hp, h]

end InRun

/-- A tick does not become due inside its own activation (log 36). -/
theorem run_envPlan_dispDue_running {s : State} (h : running .disp s = true) : (envPlan .dispDue s).run = .next s := by
  simp [envPlan, Plan.run, h]

theorem run_envPlan_saverDue_running {s : State} (h : running .saver s = true) : (envPlan .saverDue s).run = .next s := by
  simp [envPlan, Plan.run, h]

/-- Settles O6, move by move. -/
theorem environmentMoves : Obligations.EnvironmentMoves := by
  intro s r b
  refine ⟨fun hs hp => ?_, fun hs hp ha => ?_, fun hs _ ha => ?_, fun hs hp ha => ?_, fun hs _ ha => ?_,
    fun m hm hs hp => ?_, fun hs => step_of_stim_env hs, dispatch_off, fun hp ha => ?_⟩
  · rw [step_of_stim_env hs, run_envPlan_deliver (s := { s with stim := r }) hp]
  · rw [step_of_stim_env hs, run_envPlan_dispDue (s := { s with stim := r }) hp ((running_eq_false_iff ..).mpr ha)]
  · rw [step_of_stim_env hs, run_envPlan_dispDue_running (s := { s with stim := r }) ((running_eq_true_iff ..).mpr ha)]
  · rw [step_of_stim_env hs, run_envPlan_saverDue (s := { s with stim := r }) hp ((running_eq_false_iff ..).mpr ha)]
  · rw [step_of_stim_env hs, run_envPlan_saverDue_running (s := { s with stim := r }) ((running_eq_true_iff ..).mpr ha)]
  · rw [step_of_stim_env hs, run_envPlan_of_ne_run (s := { s with stim := r }) hm hp]
  · rw [dispatch_init hp, resumeOrIdle_nil ha]

/-! ## HALT and HALTED (R252, R253) -/

/-- Settles O11. -/
theorem haltTakesTheViolation : Obligations.HaltTakesTheViolation := fun _ _ hs => live_of_ne hs

/-- Every operation but RESET needs a block that is not halted. -/
theorem exec_of_halted {s : State} (hp : s.phase = .halted) {i : Instr} (hi : i ≠ .reset) :
    exec i s = .fault (.halted s.fatal) := by
  cases i with
  | reset => exact absurd rfl hi
  | _ => exact live_of_halted hp

/-- Settles O12. -/
theorem haltedHasNoStepButReset : Obligations.HaltedHasNoStepButReset := fun _ hp =>
  ⟨fun _ => exec_of_halted hp, fun hs => step_of_halted hs hp, fun _ hs => ⟨_, step_of_stim_env hs, rfl, rfl⟩⟩

end Sys2Proof.Machine
end

section
/-! PROOFS of the statements about the scanout engine (spec/45_display_scanout.md), NOTICE_CHANGE (spec/44_deframer.md R206),
RESET and BOOT (spec/70_reset_and_hazards.md section 1), and the model's choices at the edges. -/

namespace Sys2Proof.Machine

/-! ## DISPLAY_TICK (R220, R221, R222) -/

/-- The gamma-corrected colours of a row of an image, `g[0..7]` (R145, R182). -/
def rowColors (bs : List Byte) (row : Fin 8) : RowPixels :=
  (rowOfBytes ((bs.drop (24 * row.val)).take 24)).map gammaColor

/-- Channel `ch` of pixel `i` is at offset `3 * i`, `3 * i + 1` or `3 * i + 2` of the row (R61). -/
theorem channel_rowColors (bs : List Byte) (row i : Fin 8) (ch : Channel) :
    (rowColors bs row)[i].channel ch =
      gamma (bs.getD (24 * row.val + (3 * i.val + match ch with | .r => 0 | .g => 1 | .b => 2)) 0) := by
  have hpart (j : Nat) (hj : j < 24) := getD_take_drop bs (k := 24 * row.val) hj
  simp only [rowColors, Fin.getElem_fin, Vector.getElem_map, rowOfBytes, Vector.getElem_ofFn, gammaColor, channel_map]
  cases ch with
  | r => exact congrArg gamma (hpart (3 * i.val) (by omega))
  | g => exact congrArg gamma (hpart (3 * i.val + 1) (by omega))
  | b => exact congrArg gamma (hpart (3 * i.val + 2) (by omega))

/-- The row frame runs through the 24 bytes of the row backwards (R94). -/
theorem rowBit_rowColors (bs : List Byte) (row : Fin 8) {t : Nat} (ht : t < 192) :
    rowBit (rowColors bs row) t = (gamma (bs.getD (24 * row.val + 23 - t / 8) 0)).getLsbD (7 - t % 8) := by
  have hpixel := channel_rowColors bs row ⟨7 - t / 8 / 3, by omega⟩
  simp only [Fin.getElem_fin] at hpixel
  rw [rowBit, hpixel]
  obtain h | h | h : t / 8 % 3 = 0 ∨ t / 8 % 3 = 1 ∨ t / 8 % 3 = 2 := by omega
  · simp only [h, if_true]
    congr 3; omega
  · simp only [h]
    congr 3; simp; omega
  · simp only [h]
    congr 3; simp; omega

theorem currentRow_eq {s : State} {c : Slot} {bs : List Byte} (hc : s.cur = some c) (hb : slotBytes s c = some bs) :
    currentRow s = .ok (rowOfBytes ((bs.drop (24 * s.row.val)).take 24)) s := by
  have hread : Readable s (.slot .disp c) bs := .inr ⟨.disp, c, rfl, owns_disp_of_cur hc, hb⟩
  simp only [currentRow, hc]
  rw [rowRead_natCast _ s.row.isLt, imgRead_of_readable hread (by omega), Res.bind_ok]

/-- Without a current buffer DISP owns no image to send (R164). -/
theorem currentRow_none {s : State} (hc : s.cur = none) : currentRow s = .raised (s.raiseViolation .badHandle) := by
  rw [currentRow, hc]; rfl

theorem exec_displayTick {s : State} (hp : s.phase = .run) (hd : s.dispDue = true) :
    exec .displayTick s = (displayBody s).outcome :=
  (live_of_ne (by simp [hp])).trans (if_pos ⟨hp, hd⟩)

/-- The block when a display tick has sent its row: the trigger is cleared, the events are performed. -/
def rowSent (evs : List LineEvent) (s : State) : State :=
  { s with dispDue := false, lines := Lines.afterAll s.lines evs, trace := s.trace ++ evs }

/-- DISPLAY_TICK sends the current row, advances the row index, and swaps at the wrap (R220). -/
theorem displayBody_eq {s : State} {c : Slot} {bs : List Byte} (hc : s.cur = some c) (hb : slotBytes s c = some bs) :
    displayBody s = swapAtWrap (advanceRow (rowSent (rowEvents s.row (rowColors bs s.row)) s)) := by
  rw [displayBody, currentRow_eq (s := { s with dispDue := false }) hc hb, Res.bind_ok, sendRow_fin, Res.bind_ok,
    State.emit, rowSent, rowColors]

/-! The advance of the row index, and FRAME_SWAP at the wrap (R222, R223), after any events. -/

theorem swapAtWrap_row {s : State} (evs : List LineEvent) (hrow : s.row ≠ 7) :
    swapAtWrap (advanceRow (rowSent evs s)) = .ok () { rowSent evs s with row := s.row + 1 } :=
  if_neg (show s.row + 1 ≠ 0 by omega)

theorem swapAtWrap_last {s : State} (evs : List LineEvent) (hrow : s.row = 7) :
    swapAtWrap (advanceRow (rowSent evs s)) = frameSwap { rowSent evs s with row := 0 } := by
  have hwrap : advanceRow (rowSent evs s) = { rowSent evs s with row := 0 } := by
    have hrow' : (rowSent evs s).row = 7 := hrow
    rw [advanceRow, hrow']
    rfl
  rw [hwrap]
  exact if_pos rfl

theorem swapAtWrap_none {s : State} (evs : List LineEvent) (hrow : s.row = 7) (hn : s.next = none) :
    swapAtWrap (advanceRow (rowSent evs s)) = .ok () { rowSent evs s with row := 0 } :=
  (swapAtWrap_last evs hrow).trans (frameSwap_none hn)

theorem swapAtWrap_some {s : State} (evs : List LineEvent) (hrow : s.row = 7) {c h : Slot} (hc : s.cur = some c)
    (hf : c ∉ s.free) (hn : s.next = some h) :
    swapAtWrap (advanceRow (rowSent evs s)) =
      .ok () { rowSent evs s with row := 0, cur := some h, next := none, free := insertFree c s.free } :=
  (swapAtWrap_last evs hrow).trans (frameSwap_some (s := { rowSent evs s with row := 0 }) hc hf hn)

section Display
variable {s : State} {c : Slot} {bs : List Byte} (hp : s.phase = .run) (hd : s.dispDue = true) (hc : s.cur = some c)
  (hb : slotBytes s c = some bs)
include hp hd hc hb

/-- Before the wrap a display tick sends its row and advances (R221, R222). -/
theorem exec_displayTick_row (hrow : s.row ≠ 7) :
    exec .displayTick s = .next { rowSent (rowEvents s.row (rowColors bs s.row)) s with row := s.row + 1 } := by
  rw [exec_displayTick hp hd, displayBody_eq hc hb, swapAtWrap_row _ hrow, Res.outcome_ok]

/-- At the wrap with nothing pending, the row index returns to 0 and the buffer stays (R222, R223). -/
theorem exec_displayTick_wrap (hrow : s.row = 7) (hn : s.next = none) :
    exec .displayTick s = .next { rowSent (rowEvents s.row (rowColors bs s.row)) s with row := 0 } := by
  rw [exec_displayTick hp hd, displayBody_eq hc hb, swapAtWrap_none _ hrow hn, Res.outcome_ok]

/-- At the wrap with an image pending, it becomes the current one (R223). -/
theorem exec_displayTick_swap (hrow : s.row = 7) (hf : c ∉ s.free) {h : Slot} (hn : s.next = some h) :
    exec .displayTick s =
      .next { rowSent (rowEvents s.row (rowColors bs s.row)) s with
        row := 0, cur := some h, next := none, free := insertFree c s.free } := by
  rw [exec_displayTick hp hd, displayBody_eq hc hb, swapAtWrap_some _ hrow hc hf hn, Res.outcome_ok]

end Display

/-- Settles O51. -/
theorem displayTickSendsARow : Obligations.DisplayTickSendsARow := fun s _ bs hp hd hc hrow hb =>
  ⟨rowColors bs s.row, rowEvents s.row (rowColors bs s.row), rfl,
    by rw [exec_displayTick_row hp hd hc hb hrow, rowSent], fun _ => rowBit_rowColors bs s.row⟩

/-- Settles O52. -/
theorem displayTickWrapsAndSwaps : Obligations.DisplayTickWrapsAndSwaps := by
  intro s c bs hp hd hc hrow hb hf
  refine ⟨rowColors bs s.row, rowEvents s.row (rowColors bs s.row), by rw [hrow], fun hn => ?_, fun h hn => ?_,
    fun t ht => ?_⟩
  · rw [exec_displayTick_wrap hp hd hc hb hrow hn, rowSent]
  · rw [exec_displayTick_swap hp hd hc hb hrow hf hn, rowSent]
  · rw [rowBit_rowColors bs s.row ht, hrow]
    rfl

/-! ## NOTICE_CHANGE (R206) -/

theorem exec_noticeChange {s : State} (hp : s.phase = .run) (hn : 0 < s.noticePending) :
    exec .noticeChange s = .next (bumpCounter { s with noticePending := s.noticePending - 1 }) :=
  (live_of_ne (by simp [hp])).trans (if_pos ⟨hp, hn⟩)

/-- Settles O50: the counter is a word of 32 bits, whose addition wraps. -/
theorem noticeIncrementsTheCounter : Obligations.NoticeIncrementsTheCounter := by
  intro s n hp hn
  refine ⟨s.changes + 1, ?_, BitVec.toNat_add s.changes 1, fun h => by rw [h]; rfl⟩
  rw [exec_noticeChange hp (by omega), bumpCounter]
  simp only [hn, Nat.add_sub_cancel]

/-! ## RESET (R290) -/

/-- Settles O13: the state after RESET is written out in the model. -/
theorem resetGivesTheOffValues : Obligations.ResetGivesTheOffValues := fun s =>
  ⟨s.toReset, rfl, rfl, rfl, rfl, rfl, rfl, rfl, rfl, rfl, rfl, rfl, rfl, rfl, rfl, rfl, rfl, rfl, rfl, rfl, rfl⟩

/-! ## BOOT (R291) -/

/-- What BOOT makes of a state in OFF. -/
def booted (s : State) : State := { State.emit drvInitEvents (bootCells { s with phase := .init }) with phase := .run }

theorem exec_boot {s : State} (hp : s.phase = .off) : exec .boot s = .next (booted s) :=
  (live_of_ne (by simp [hp])).trans (if_pos hp)

theorem booted_lines (s : State) :
    (booted s).lines = { s.lines with
      rst := true, sb := true, sda := true, sck := Config.sckIdle, lat := Config.latIdle } := by
  simp only [booted, emit_lines]
  exact afterAll_drvInitEvents _

/-- A byte of another slot is not written by an image. -/
theorem Memory.readBlock_write_image_ne (m : Memory) {g h : Slot} (hne : g ≠ h) (img : Image) :
    Memory.readBlock (Memory.write m (slotAddr g 0) img.toList) (slotAddr h 0) 192 =
      Memory.readBlock m (slotAddr h 0) 192 :=
  Memory.readBlock_congr fun i hi => by
    rw [show slotAddr h 0 + i = slotAddr h i by simp [slotAddr]]
    exact Memory.read_write_image_of_not_inSlot m img (not_inSlot_slotAddr hne hi)

/-- The three slots hold the three initial images (R291). -/
theorem slotBytes_booted (s : State) :
    slotBytes (booted s) 0 = some Config.initCurImage.toList ∧ slotBytes (booted s) 1 = some Config.initAsmImage.toList ∧
      slotBytes (booted s) 2 = some Config.initSpareImage.toList := by
  simp only [slotBytes, booted, emit_mem, bootCells]
  refine ⟨?_, ?_, Memory.readBlock_write_image _ 2 _⟩
  · rw [Memory.readBlock_write_image_ne _ (by decide), Memory.readBlock_write_image_ne _ (by decide),
      Memory.readBlock_write_image]
  · rw [Memory.readBlock_write_image_ne _ (by decide), Memory.readBlock_write_image]

theorem not_inSlot_of_le (h : Slot) {x : Nat} (hx : 576 ≤ x) : ¬ inSlot h x := by
  unfold inSlot
  omega

theorem read_booted_of_le (s : State) {x : Nat} (hx : 576 ≤ x) :
    Memory.read (booted s).mem x = Memory.read s.mem x := by
  simp only [booted, emit_mem, bootCells]
  iterate 3 rw [Memory.read_write_image_of_not_inSlot _ _ (not_inSlot_of_le _ hx)]

/-- Settles O14. -/
theorem bootReachesRun : Obligations.BootReachesRun := by
  intro s hp _
  obtain ⟨h0, h1, h2⟩ := slotBytes_booted s
  exact ⟨booted s, exec_boot hp, rfl, rfl, rfl, rfl, rfl, rfl, rfl, h0, h1, h2, fun _ => read_booted_of_le s, rfl, rfl, rfl,
    rfl, rfl, rfl, rfl, rfl, rfl, rfl, booted_lines s, rfl, rfl, rfl, rfl, rfl⟩

/-! ## The model's choices at the edges -/

theorem exec_rxByte_refused {s : State} (hs : s.phase ≠ .halted) (h : s.phase ≠ .run ∨ s.rxFifo = []) :
    exec .rxByte s = .refused .notTriggered := by
  refine (live_of_ne hs).trans ?_
  by_cases hp : s.phase = .run
  · rw [if_pos hp, h.resolve_left (not_not_intro hp)]
    rfl
  · exact if_neg hp

/-- A byte to be stored needs an assembly buffer (R164). -/
theorem exec_data_none {s : State} {c : Fin 192} {d : Byte} (hs : s.phase ≠ .halted) (hr : s.rxState = .filling c)
    (hd : d ≠ 0xFF#8) (ha : s.asm = none) : exec (.data d) s = .next (s.raiseViolation .badHandle) := by
  rw [exec_data hs hd, dataByte, hr]
  simp only [ha]
  rfl

/-- Settles O59. -/
theorem modelChoicesAtTheEdges : Obligations.ModelChoicesAtTheEdges := by
  intro s
  refine ⟨fun hs => ⟨live_of_ne hs, exec_rxByte_refused hs, fun h => ?_, fun h => ?_, fun h => ?_, fun h => ?_,
    fun c d hr hd ha => exec_data_none hs hr hd ha, fun hp hd hc => ?_⟩,
    s.toReset, rfl, read_offArena (s.draws + 1), rfl, rfl, rfl, rfl, rfl⟩
  · exact (live_of_ne hs).trans (if_neg fun ⟨hp, hd⟩ => h.elim (· hp) fun hf => nomatch hd.symm.trans hf)
  · exact (live_of_ne hs).trans (if_neg fun ⟨hp, hd⟩ => h.elim (· hp) fun hf => nomatch hd.symm.trans hf)
  · exact (live_of_ne hs).trans (if_neg fun ⟨hp, hn⟩ => h.elim (· hp) fun h0 => Nat.ne_of_gt hn h0)
  · exact (live_of_ne hs).trans (if_neg h)
  · rw [exec_displayTick hp hd, displayBody, currentRow_none (s := { s with dispDue := false }) hc]
    rfl

end Sys2Proof.Machine
end

section
/-! PROOFS of the invariants that every step keeps (spec/10_state.md, spec/42_pool.md). The step is taken apart once, into
elementary changes; each invariant is then proved change by change. -/

namespace Sys2Proof.Machine

/-! ## Elementary changes -/

/-- The cells the invariants speak of, and whether the block is halted. -/
def State.watched (s : State) :
    Memory × List Slot × Option Slot × Option Slot × Option Slot × List (Agent × Slot) × RxState × Option Cause × Bool :=
  (s.mem, s.free, s.next, s.asm, s.cur, s.held, s.rxState, s.fatal, decide (s.phase = .halted))

/-- One elementary change of the watched cells, with whatever else the operation changes along with them. -/
inductive Move : State → State → Prop
  /-- No watched cell changes. -/
  | quiet {s t : State} (h : t.watched = s.watched) : Move s t
  /-- SYNC (R201). -/
  | sync {s : State} : Move s (syncByte s)
  /-- A byte is stored at the cursor, which stays or advances (R203). -/
  | store {s : State} {a : Slot} {c : Fin 192} {d : Byte} {r : RxState} (hd : d ≠ 0xFF#8) (hr : s.rxState = .filling c)
      (ha : s.asm = some a) (hnext : r = .filling c ∨ ∃ c' : Fin 192, c'.val = c.val + 1 ∧ r = .filling c') :
      Move s { s with mem := Memory.write s.mem (slotAddr a c.val) [d], rxState := r }
  /-- A free slot is allocated (R161). -/
  | alloc {s : State} {who : Agent} {h : Slot} {d : Nat} {img : Image} (hf : h ∈ s.free) :
      Move s { s with
        free := s.free.erase h, draws := d, mem := Memory.write s.mem (slotAddr h 0) img.toList
        held := (who, h) :: s.held }
  /-- An owned handle goes back to the free list (R162). -/
  | free {s : State} {who : Agent} {h : Slot} (ho : owns who h s = true) (hf : h ∉ s.free) :
      Move s { s.release who h with free := insertFree h s.free }
  /-- The pending handle is taken (R167). -/
  | take {s : State} {who : Agent} {h : Slot} (hn : s.next = some h) :
      Move s { s with next := none, held := (who, h) :: s.held }
  /-- An owned handle becomes the pending one, over an empty cell or over another handle (R166). -/
  | publish {s : State} {who : Agent} {h : Slot} (ho : owns who h s = true) (hn : s.next = none) :
      Move s { s.release who h with next := some h }
  | displace {s : State} {who : Agent} {h o : Slot} (ho : owns who h s = true) (hn : s.next = some o) :
      Move s (State.hold who o { s.release who h with next := some h })
  /-- A held handle becomes the pending one (R236). -/
  | install {s : State} {who : Agent} {h : Slot} (hh : (who, h) ∈ s.held) (hn : s.next = none) :
      Move s { s.unhold who h with next := some h }
  /-- A held handle becomes the assembly buffer of a deframer that has none and waits (R204). -/
  | adopt {s : State} {h : Slot} (hh : (Agent.rx, h) ∈ s.held) (ha : PoolInv s → s.asm = none) :
      Move s { adoptAsm h s with rxState := .awaitingSync }
  /-- A held handle and the current one change places (R223). -/
  | swap {s : State} {h old : Slot} (hh : (Agent.disp, h) ∈ s.held) (hc : s.cur = some old) :
      Move s (State.hold .disp old { s.unhold .disp h with cur := some h })
  /-- BOOT's assignments (R291). -/
  | boot {s : State} : Move s (bootCells s)
  /-- RESET (R290). -/
  | reset {s : State} : Move s s.toReset

/-- Any number of elementary changes. -/
abbrev Moves : State → State → Prop := Relation.ReflTransGen Move

theorem Moves.single {s t : State} (h : Move s t) : Moves s t := Relation.ReflTransGen.single h

theorem Moves.of_watched {s t : State} (h : t.watched = s.watched) : Moves s t := .single (.quiet h)

section Watched
variable {s t : State} (h : t.watched = s.watched)
include h

theorem watched_mem : t.mem = s.mem := congrArg (·.1) h
theorem watched_free : t.free = s.free := congrArg (·.2.1) h
theorem watched_next : t.next = s.next := congrArg (·.2.2.1) h
theorem watched_asm : t.asm = s.asm := congrArg (·.2.2.2.1) h
theorem watched_cur : t.cur = s.cur := congrArg (·.2.2.2.2.1) h
theorem watched_held : t.held = s.held := congrArg (·.2.2.2.2.2.1) h
theorem watched_rxState : t.rxState = s.rxState := congrArg (·.2.2.2.2.2.2.1) h
theorem watched_fatal : t.fatal = s.fatal := congrArg (·.2.2.2.2.2.2.2.1) h
theorem watched_halted : t.phase = .halted ↔ s.phase = .halted :=
  decide_eq_decide.mp (congrArg (·.2.2.2.2.2.2.2.2) h)

end Watched

theorem watched_emit (evs : List LineEvent) (s : State) : (s.emit evs).watched = s.watched := rfl

/-- A change of phase that keeps out of HALTED is not watched. -/
theorem watched_with_phase {s : State} {p : Phase} (hs : s.phase ≠ .halted) (hp : p ≠ .halted) :
    ({ s with phase := p } : State).watched = s.watched := by
  simp [State.watched, hs, hp]

/-- No elementary change halts the block. -/
theorem Move.live {s t : State} (h : Move s t) (hs : s.phase ≠ .halted) : t.phase ≠ .halted := by
  cases h with
  | quiet h => exact fun ht => hs ((watched_halted h).mp ht)
  | free | publish | displace => simpa using hs
  | reset => exact nofun
  | sync | store | alloc | take | install | adopt | swap | boot => exact hs

theorem Moves.live {s t : State} (h : Moves s t) (hs : s.phase ≠ .halted) : t.phase ≠ .halted := by
  induction h with
  | refl => exact hs
  | tail _ hmove ih => exact hmove.live ih

/-! ## Operations, taken apart -/

/-- An operation begun at `s` ends after elementary changes, or raises after some. -/
def Res.Within {α : Type} (s : State) : Res α → Prop
  | .ok _ t => Moves s t
  | .raised t => ∃ u c, Moves s u ∧ t = u.raiseViolation c
  | .fault _ | .refused _ => True

theorem within_ok {α : Type} (a : α) (s : State) : (Res.ok a s).Within s := Relation.ReflTransGen.refl

theorem within_ok_of_watched {α : Type} {a : α} {s t : State} (h : t.watched = s.watched) : (Res.ok a t).Within s :=
  Moves.of_watched h

theorem within_raise {α : Type} (c : Cause) (s : State) : (raise c s : Res α).Within s :=
  ⟨s, c, Relation.ReflTransGen.refl, rfl⟩

theorem Res.Within.of_moves {α : Type} {s u : State} {m : Res α} (hu : Moves s u) (hm : m.Within u) : m.Within s := by
  cases m with
  | ok a t => exact hu.trans hm
  | raised t =>
    obtain ⟨v, c, hv, rfl⟩ := hm
    exact ⟨v, c, hu.trans hv, rfl⟩
  | fault f => trivial
  | refused r => trivial

theorem Res.Within.of_watched {α : Type} {s u : State} {m : Res α} (hm : m.Within u) (hu : u.watched = s.watched) :
    m.Within s := hm.of_moves (.of_watched hu)

/-- A sequence is within when its first part is, and its second part from where the first ends. -/
theorem Res.Within.bind {α β : Type} {s : State} {m : Res α} {k : α → State → Res β} (hm : m.Within s)
    (hk : ∀ a u, m = .ok a u → Moves s u → (k a u).Within u) : (m.bind k).Within s := by
  cases m with
  | ok a u => exact (hk a u rfl hm).of_moves hm
  | raised t => exact hm
  | fault f => trivial
  | refused r => trivial

/-- A section changes no watched cell by itself. -/
theorem within_critical {α : Type} {who : Agent} {cells : List Shared} {body : State → Res α} {s : State}
    (h : (body (s.enterLock who cells)).Within (s.enterLock who cells)) : (critical who cells body s).Within s :=
  Res.Within.of_watched (u := s.enterLock who cells)
    (h.bind fun a u _ _ => within_ok_of_watched (a := a) (t := u.leaveLock) rfl) rfl

/-! ### Reads -/

theorem within_imgRead (img : ImgRef) (k n : Nat) (s : State) : (imgRead img k n s).Within s := by
  cases img with
  | value v =>
    rw [imgRead]
    split
    · exact within_raise _ s
    · exact within_ok _ s
  | slot who h =>
    rw [imgRead]
    obtain ⟨_, hm⟩ | ⟨_, _, hm⟩ | ⟨_, _, _, hm⟩ | ⟨_, _, bs, _, hm⟩ := memRead_cases who h k n s <;> rw [hm]
    · exact within_raise (α := Unit) _ s
    · exact within_raise (α := Unit) _ s
    · trivial
    · exact within_ok bs s

theorem within_currentRow (s : State) : (currentRow s).Within s := by
  rw [currentRow]
  split
  · exact within_raise _ s
  · rw [rowRead]
    split
    · exact (within_imgRead _ _ _ s).bind fun bs u _ _ => within_ok _ u
    · exact within_raise _ s

/-! ### The pool and the next-image cell -/

theorem within_poolAlloc (who : Agent) (img : Image) (s : State) : (poolAlloc who img s).Within s := by
  obtain ⟨_, hm⟩ | ⟨h, d, hf, _, hm⟩ := poolAlloc_cases who img s <;> rw [hm]
  · exact within_raise (α := Unit) _ s
  · exact .single (.alloc hf)

theorem within_poolFree (who : Agent) (h : Slot) (s : State) : (poolFree who h s).Within s := by
  obtain ⟨_, hm⟩ | ⟨ho, hf, hm⟩ := poolFree_cases who h s <;> rw [hm]
  · exact within_raise (α := Unit) _ s
  · exact .single (.free ho hf)

theorem within_nextTake (who : Agent) (s : State) : (nextTake who s).Within s := by
  obtain ⟨_, hm⟩ | ⟨h, hn, hm⟩ := nextTake_cases who s <;> rw [hm]
  · exact within_ok _ s
  · exact .single (.take hn)

theorem within_nextReplace (who : Agent) (h : Slot) (s : State) : (nextReplace who h s).Within s := by
  obtain ⟨_, hm⟩ | ⟨ho, _, hn, hm⟩ | ⟨ho, _, o, hn, hm⟩ := nextReplace_cases who h s <;> rw [hm]
  · exact within_raise (α := Unit) _ s
  · exact .single (.publish ho hn)
  · exact (within_poolFree who o _).of_moves (.single (.displace ho hn))

/-! ### The deframer -/

/-- When RX has published its assembly buffer `a`, it has none, unless the slot had two owners. -/
theorem asm_of_nextReplace {a : Slot} {s t : State} (ha : s.asm = some a) (h : nextReplace .rx a s = .ok () t) :
    t.next = some a ∧ (t.asm = none ∨ t.asm = some a) := by
  have hrelease (ho : owns .rx a s = true) : (s.release .rx a).asm = none ∨ (s.release .rx a).asm = some a := by
    obtain ⟨_, heq⟩ | ⟨_, _, _, heq⟩ | ⟨_, hne, _⟩ := release_cases .rx a s ho
    · exact .inr (heq ▸ ha)
    · exact .inl (heq ▸ rfl)
    · cases hne
  obtain ⟨_, hm⟩ | ⟨ho, _, _, hm⟩ | ⟨ho, _, o, _, hm⟩ := nextReplace_cases .rx a s
  · cases hm.symm.trans h
  · cases hm.symm.trans h
    exact ⟨rfl, hrelease ho⟩
  · have hfree := hm.symm.trans h
    have howned : owns .rx o (State.hold .rx o { s.release .rx a with next := some a }) = true :=
      owns_of_held List.mem_cons_self
    obtain ⟨_, hf⟩ | ⟨_, _, hf⟩ := poolFree_cases .rx o (State.hold .rx o { s.release .rx a with next := some a })
    · cases hf.symm.trans hfree
    · cases hf.symm.trans hfree
      rw [release_of_held (by exact List.mem_cons_self)]
      exact ⟨rfl, hrelease ho⟩

/-- Two cells with the same handle are no state of a pool with one owner a slot. -/
theorem PoolInv.next_ne_asm {s : State} (h : PoolInv s) {a : Slot} (hn : s.next = some a) : s.asm ≠ some a := by
  intro ha
  have hnodup : (owners s).Nodup := h.nodup_iff.mpr (by decide)
  simp [owners, hn, ha, List.nodup_append] at hnodup

/-- An allocated handle is in a local variable, and the other cells keep their handles. -/
theorem poolAlloc_ok {who : Agent} {img : Image} {s t : State} {h : Slot} (heq : poolAlloc who img s = .ok h t) :
    (who, h) ∈ t.held ∧ t.next = s.next ∧ t.asm = s.asm := by
  obtain ⟨_, hm⟩ | ⟨g, d, _, _, hm⟩ := poolAlloc_cases who img s
  · cases hm.symm.trans heq
  · cases hm.symm.trans heq
    exact ⟨List.mem_cons_self, rfl, rfl⟩

theorem within_completeFrame (s : State) : (completeFrame s).Within s := by
  cases ha : s.asm with
  | none =>
    simp only [completeFrame, critical, enterLock_asm, ha, raise_eq, Res.bind_raised]
    exact (within_raise (α := Unit) .badHandle (s.enterLock .rx [.next, .pool])).of_watched rfl
  | some a =>
    simp only [completeFrame, critical, enterLock_asm, ha, Res.bind_assoc, Res.bind_ok]
    refine ((within_nextReplace ..).bind fun _ u hu _ => (within_poolAlloc ..).bind fun h v hv _ => ?_).of_watched
      (u := s.enterLock ..) rfl
    obtain ⟨hnext, hasm⟩ := asm_of_nextReplace (s := s.enterLock ..) ha hu
    obtain ⟨hheld, hnext', hasm'⟩ := poolAlloc_ok hv
    have hnone (hpool : PoolInv v) : v.asm = none := by
      rw [hasm']
      exact hasm.resolve_right (hasm' ▸ hpool.next_ne_asm (hnext'.trans hnext))
    exact (Moves.single (.adopt hheld hnone)).tail (.quiet rfl)

theorem within_dataByte {d : Byte} (hd : d ≠ 0xFF#8) (s : State) : (dataByte d s).Within s := by
  cases hr : s.rxState with
  | awaitingSync =>
    rw [dataByte_awaitingSync d hr]
    exact within_ok () s
  | filling c =>
    cases ha : s.asm with
    | none =>
      simp only [dataByte, hr, ha]
      exact within_raise _ s
    | some a =>
      rw [dataByte_filling d hr ha]
      split
      · exact .single (.store hd hr ha (.inr ⟨_, rfl, rfl⟩))
      · exact (within_completeFrame _).of_moves (hr ▸ .single (.store hd hr ha (.inl rfl)))

/-! ### The scanout engine and the screensaver -/

theorem nextTake_ok {who : Agent} {s t : State} {x : Option Slot} (heq : nextTake who s = .ok x t) :
    t.next = none ∧ ∀ h, x = some h → (who, h) ∈ t.held := by
  obtain ⟨hn, hm⟩ | ⟨g, _, hm⟩ := nextTake_cases who s
  · cases hm.symm.trans heq
    exact ⟨hn, nofun⟩
  · cases hm.symm.trans heq
    exact ⟨rfl, fun h hx => by cases hx; exact List.mem_cons_self⟩

theorem within_frameSwap (s : State) : (frameSwap s).Within s := by
  refine within_critical ((within_nextTake ..).bind fun x u hu _ => ?_)
  cases x with
  | none => exact within_ok () u
  | some h =>
    cases hc : u.cur with
    | none =>
      exact within_raise _ u
    | some old =>
      exact (within_poolFree ..).of_moves (.single (.swap ((nextTake_ok hu).2 h rfl) hc))

theorem within_swapAtWrap (s : State) : (swapAtWrap s).Within s := by
  rw [swapAtWrap]
  split
  · exact within_frameSwap s
  · exact within_ok () s

theorem within_sendRow (row : Int) (px : RowPixels) (s : State) : (sendRow row px s).Within s := by
  obtain ⟨_, hm⟩ | ⟨_, _, hm⟩ := sendRow_cases row px s <;> rw [hm]
  · exact within_raise (α := Unit) _ s
  · exact within_ok_of_watched (watched_emit _ s)

theorem within_displayBody (s : State) : (displayBody s).Within s :=
  ((within_currentRow _).bind fun _ u _ _ => (within_sendRow _ _ u).bind fun _ v _ _ =>
    (within_swapAtWrap (advanceRow v)).of_watched rfl).of_watched (u := { s with dispDue := false }) rfl

theorem freeTaken_ok {x : Option Slot} {s t : State} (heq : freeTaken x s = .ok () t) : t.next = s.next := by
  cases x with
  | none => cases heq; rfl
  | some h =>
    obtain ⟨_, hm⟩ | ⟨_, _, hm⟩ := poolFree_cases .saver h s
    · cases hm.symm.trans heq
    · cases hm.symm.trans heq
      exact release_next ..

theorem within_freeTaken (x : Option Slot) (s : State) : (freeTaken x s).Within s := by
  cases x with
  | none => exact within_ok () s
  | some h => exact within_poolFree .saver h s

theorem within_saverIdle (s : State) : (saverIdle s).Within s := by
  refine (within_nextTake ..).bind fun x u hu _ => (within_freeTaken x u).bind fun _ v hv _ =>
    (within_poolAlloc ..).bind fun h w hw _ => ?_
  obtain ⟨hheld, hnext, _⟩ := poolAlloc_ok hw
  have hnone : w.next = none := hnext.trans ((freeTaken_ok hv).trans (nextTake_ok hu).1)
  exact (Moves.single (.install hheld hnone)).tail (.quiet rfl)

theorem within_saverSection (s : State) : (saverSection s).Within s := by
  refine within_critical ?_
  split
  · exact within_saverIdle _
  · exact within_ok_of_watched rfl

/-! ### Activations in progress -/

theorem watched_setG (g : RowPixels) (s : State) : (s.setG g).watched = s.watched := by
  cases s with
  | mk =>
    simp only [State.setG]
    split <;> rfl

/-- A primitive step of a block that is not halted (R258). -/
theorem within_runMicro (who : Agent) (m : Micro) {s : State} (hs : s.phase ≠ .halted) : (runMicro who m s).Within s := by
  cases m with
  | loadRow => exact (within_currentRow s).bind fun _ u _ _ => within_ok_of_watched (watched_setG _ u)
  | swapAtWrap => exact within_swapAtWrap s
  | saverSection => exact within_saverSection s
  | bootCells => exact .single .boot
  | bootDone => exact within_ok_of_watched (watched_with_phase hs nofun)
  | bit | event | advanceRow | lockEnter | bumpChanges | lockLeave => exact within_ok_of_watched rfl

theorem microStep_nil {s : State} (ha : s.acts = []) : microStep s = .ok () s := by simp only [microStep, ha]

theorem microStep_done {s : State} {a : Activation} {rest : List Activation} (ha : s.acts = a :: rest)
    (ht : a.todo = []) : microStep s = .ok () s.pop := by simp only [microStep, ha, ht]

/-- The next primitive step of the innermost activation, which ends after its last one (R258, R260). -/
theorem microStep_cons {s : State} {a : Activation} {rest : List Activation} {m : Micro} {ms : List Micro}
    (ha : s.acts = a :: rest) (ht : a.todo = m :: ms) :
    microStep s = (runMicro a.agent m { s with acts := { a with todo := ms } :: rest }).bind fun _ s' =>
      if ms = [] then .ok () s'.pop else .ok () s' := by simp only [microStep, ha, ht]

theorem within_microStep {s : State} (hs : s.phase ≠ .halted) : (microStep s).Within s := by
  cases ha : s.acts with
  | nil => exact microStep_nil ha ▸ within_ok () s
  | cons a rest =>
    cases ht : a.todo with
    | nil => exact microStep_done ha ht ▸ within_ok_of_watched rfl
    | cons m ms =>
      rw [microStep_cons ha ht]
      refine ((within_runMicro a.agent m (s := { s with acts := { a with todo := ms } :: rest }) hs).bind
        fun _ u _ _ => ?_).of_watched rfl
      split
      · exact within_ok_of_watched rfl
      · exact within_ok () u

theorem within_microSteps (ms : List Micro) {s : State} (hs : s.phase ≠ .halted) : (microSteps ms s).Within s := by
  induction ms generalizing s with
  | nil => exact within_ok () s
  | cons m ms ih => exact (within_microStep hs).bind fun _ u _ hu => ih (hu.live hs)

theorem within_finish {s : State} (hs : s.phase ≠ .halted) : (finish s).Within s := by
  rw [finish]
  split
  · exact within_ok () s
  · split
    · exact within_microStep hs
    · exact within_microSteps _ hs

/-! ## The step, taken apart -/

/-- A next state is reached by elementary changes, or by a violation taken after some. -/
def ReachedFrom (s : State) (o : Result) : Prop :=
  ∀ t, o = .next t → Moves s t ∨ ∃ u c, Moves s u ∧ t = u.raiseViolation c

theorem Res.Within.reachedFrom {α : Type} {s : State} {m : Res α} (h : m.Within s) : ReachedFrom s m.outcome := by
  intro t ht
  cases m with
  | ok a u => cases ht; exact .inl h
  | raised u => cases ht; exact .inr h
  | fault f => cases ht
  | refused r => cases ht

theorem reachedFrom_next {s t : State} (h : Moves s t) : ReachedFrom s (.next t) := fun _ hu => by
  cases hu; exact .inl h

theorem reachedFrom_refused (s : State) (r : Refusal) : ReachedFrom s (.refused r) := fun _ h => by cases h

theorem reachedFrom_fault (s : State) (f : Fault) : ReachedFrom s (.fault f) := fun _ h => by cases h

theorem ReachedFrom.of_watched {s u : State} {o : Result} (h : ReachedFrom u o) (hu : u.watched = s.watched) :
    ReachedFrom s o := fun t ht =>
  (h t ht).imp (Moves.of_watched hu).trans fun ⟨v, c, hv, heq⟩ => ⟨v, c, (Moves.of_watched hu).trans hv, heq⟩

theorem ReachedFrom.live {s : State} {o : Result} (h : s.phase ≠ .halted → ReachedFrom s o) :
    ReachedFrom s (live s o) := fun t ht =>
  have ⟨hs, ho⟩ := live_next_iff.mp ht
  h hs t ho

theorem reachedFrom_exec_sync (s : State) : ReachedFrom s (exec .sync s) :=
  .live fun _ => reachedFrom_next (.single .sync)

theorem reachedFrom_exec_data (d : Byte) (s : State) : ReachedFrom s (exec (.data d) s) := by
  refine .live fun _ => ?_
  split
  · next hd => exact (within_dataByte ((payloadOk_iff d).mp hd) s).reachedFrom
  · exact reachedFrom_refused s _

theorem reachedFrom_exec_boot (s : State) : ReachedFrom s (exec .boot s) := by
  refine .live fun hs => ?_
  split
  · next hp =>
    have hinit : Moves s { s with phase := .init } := .of_watched (watched_with_phase hs nofun)
    have hcells : Moves s (State.emit drvInitEvents (bootCells { s with phase := .init })) :=
      (hinit.tail .boot).tail (.quiet (watched_emit _ _))
    exact reachedFrom_next (hcells.trans (Moves.of_watched (watched_with_phase (hcells.live hs) nofun)))
  · exact reachedFrom_refused s _

theorem reachedFrom_exec_displayTick (s : State) : ReachedFrom s (exec .displayTick s) := by
  refine .live fun _ => ?_
  split
  · exact (within_displayBody s).reachedFrom
  · exact reachedFrom_refused s _

theorem reachedFrom_exec_saverTick (s : State) : ReachedFrom s (exec .saverTick s) := by
  refine .live fun _ => ?_
  split
  · exact ((within_saverSection { s with saverDue := false }).of_watched (s := s) rfl).reachedFrom
  · exact reachedFrom_refused s _

theorem reachedFrom_exec_noticeChange (s : State) : ReachedFrom s (exec .noticeChange s) := by
  refine .live fun _ => ?_
  split
  · exact reachedFrom_next (.of_watched rfl)
  · exact reachedFrom_refused s _

/-- A received byte is SYNC or DATA. -/
theorem reachedFrom_rxPlan (s : State) : ReachedFrom s (rxPlan s).run := by
  cases hf : s.rxFifo with
  | nil =>
    simp only [rxPlan, hf]
    exact reachedFrom_refused s _
  | cons b rest =>
    rw [run_rxPlan (i := decodeByte b) (rest := rest) (by rw [hf]; rfl)]
    refine ReachedFrom.of_watched (u := { s with rxFifo := rest }) ?_ rfl
    rcases decodeByte_cases b with h | h <;> rw [h]
    · exact reachedFrom_exec_sync _
    · exact reachedFrom_exec_data b _

theorem reachedFrom_coarseStart (a : Agent) (s : State) : ReachedFrom s (coarseStart a s).run := by
  cases a with
  | rx => exact reachedFrom_rxPlan s
  | boot => exact reachedFrom_exec_boot s
  | disp => exact reachedFrom_exec_displayTick s
  | saver => exact reachedFrom_exec_saverTick s
  | notice => exact reachedFrom_exec_noticeChange s

theorem reachedFrom_fineStart (a : Agent) {s : State} (hs : s.phase ≠ .halted) : ReachedFrom s (fineStart a s).run := by
  cases a with
  | rx => exact reachedFrom_rxPlan s
  | boot =>
    have hinit : Moves s { s with phase := .init } := .of_watched (watched_with_phase hs nofun)
    exact reachedFrom_next (hinit.tail (.quiet rfl))
  | disp | saver | notice => exact reachedFrom_next (.of_watched rfl)

/-- A halted block makes no move (R253). -/
theorem ne_halted_of_dispatch {s : State} (h : dispatch s ≠ .idle) : s.phase ≠ .halted :=
  fun hp => h (dispatch_halted hp)

theorem reachedFrom_coarsePlan (s : State) : ReachedFrom s (coarsePlan s).run := by
  rw [coarsePlan]
  split
  · exact reachedFrom_coarseStart _ s
  · exact (reachedFrom_coarseStart (tieAgent s) { s with draws := s.draws + 1 }).of_watched rfl
  · next hd => exact (within_finish (ne_halted_of_dispatch (by simp [hd]))).reachedFrom
  · exact reachedFrom_next .refl

theorem reachedFrom_finePlan (s : State) : ReachedFrom s (finePlan s).run := by
  rw [finePlan]
  split
  · next a hd => exact reachedFrom_fineStart a (ne_halted_of_dispatch (by simp [hd]))
  · next hd =>
    have hs : s.phase ≠ .halted := ne_halted_of_dispatch (by simp [hd])
    exact (reachedFrom_fineStart (tieAgent s) (s := { s with draws := s.draws + 1 }) hs).of_watched rfl
  · next hd => exact (within_microStep (ne_halted_of_dispatch (by simp [hd]))).reachedFrom
  · exact reachedFrom_next .refl

theorem reachedFrom_envPlan (m : EnvMove) (s : State) : ReachedFrom s (envPlan m s).run := by
  cases m with
  | reset => exact reachedFrom_next (.single .reset)
  | deliver | dispDue | saverDue =>
    refine reachedFrom_next (.of_watched ?_)
    split <;> rfl

/-- Every step is elementary changes, which a violation may end. -/
theorem reachedFrom_step (s : State) : ReachedFrom s (step s) := by
  rw [step_eq_run, stepPlan]
  split
  · split
    · exact reachedFrom_fault s _
    · exact reachedFrom_coarsePlan s
  · exact (reachedFrom_envPlan _ _).of_watched rfl
  · exact (reachedFrom_finePlan _).of_watched rfl
  · split
    · exact reachedFrom_next (.of_watched rfl)
    · exact reachedFrom_coarsePlan s

/-- What elementary changes and violations keep, every step keeps. -/
theorem step_keeps {P : State → Prop} (hmove : ∀ {s t}, Move s t → P s → P t)
    (hraise : ∀ {s} c, P s → P (s.raiseViolation c)) {s t : State} (hs : P s) (hstep : step s = .next t) : P t := by
  have hmoves {u : State} (h : Moves s u) : P u := by
    induction h with
    | refl => exact hs
    | tail _ hm ih => exact hmove hm ih
  obtain h | ⟨u, c, h, rfl⟩ := reachedFrom_step s t hstep
  · exact hmoves h
  · exact hraise c (hmoves h)

end Sys2Proof.Machine
end

section
/-! PROOFS of the invariants that every step keeps, change by change (spec/10_state.md section 9, spec/42_pool.md). -/

namespace Sys2Proof.Machine

/-! ## One owner a slot (R163) -/

/-- How many places hold a slot. -/
def copies (x : Slot) (s : State) : Nat :=
  s.free.count x + s.next.toList.count x + s.asm.toList.count x + s.cur.toList.count x + (s.held.map Prod.snd).count x

theorem count_owners (x : Slot) (s : State) : (owners s).count x = copies x s := by
  simp [owners, copies, List.count_append, Nat.add_assoc]

theorem count_slots (x : Slot) : ([0, 1, 2] : List Slot).count x = 1 := by
  revert x
  decide

theorem poolInv_iff (s : State) : PoolInv s ↔ ∀ x, copies x s = 1 := by
  simp only [PoolInv, List.perm_iff_count, count_owners, count_slots]

/-- A slot that leaves a local variable leaves one place. -/
theorem count_held_erase {who : Agent} {h : Slot} {l : List (Agent × Slot)} (hm : (who, h) ∈ l) (x : Slot) :
    (l.map Prod.snd).count x = ((l.erase (who, h)).map Prod.snd).count x + if h = x then 1 else 0 := by
  rw [((List.perm_cons_erase hm).map Prod.snd).count_eq, List.map_cons, List.count_cons]
  simp only [beq_iff_eq]

theorem insertFree_perm {h : Slot} {l : List Slot} (hf : h ∉ l) : (insertFree h l).Perm (h :: l) := by
  induction l with
  | nil => exact .refl _
  | cons y ys ih =>
    rw [List.mem_cons, not_or] at hf
    rw [insertFree, if_neg hf.1]
    split
    · exact .refl _
    · exact ((ih hf.2).cons y).trans (.swap h y ys)

theorem count_insertFree {h : Slot} {l : List Slot} (hf : h ∉ l) (x : Slot) :
    (insertFree h l).count x = l.count x + if h = x then 1 else 0 := by
  rw [(insertFree_perm hf).count_eq, List.count_cons]
  simp only [beq_iff_eq]

/-- A released handle leaves one place. -/
theorem copies_release {who : Agent} {h : Slot} {s : State} (ho : owns who h s = true) (x : Slot) :
    copies x s = copies x (s.release who h) + if h = x then 1 else 0 := by
  obtain ⟨hh, heq⟩ | ⟨_, _, ha, heq⟩ | ⟨_, _, hc, heq⟩ := release_cases who h s ho
  · have hcount := count_held_erase hh x
    simp only [heq, copies]
    omega
  · simp only [heq, copies, ha, Option.toList_some, Option.toList_none, List.count_singleton, List.count_nil, beq_iff_eq]
    omega
  · simp only [heq, copies, hc, Option.toList_some, Option.toList_none, List.count_singleton, List.count_nil, beq_iff_eq]
    omega

/-- Every elementary change moves handles from place to place, or gives each slot one owner. -/
theorem PoolInv.move {s t : State} (h : Move s t) (hs : PoolInv s) : PoolInv t := by
  rw [poolInv_iff] at hs ⊢
  intro x
  have hx := hs x
  cases h with
  | quiet h =>
    simpa only [copies, watched_free h, watched_next h, watched_asm h, watched_cur h, watched_held h] using hx
  | sync => exact hx
  | store => exact hx
  | alloc hf =>
    have hcount := (List.perm_cons_erase hf).count_eq x
    simp only [copies, List.map_cons, List.count_cons, beq_iff_eq] at hx hcount ⊢
    omega
  | free ho hf =>
    have hrelease := copies_release ho x
    have hinsert := count_insertFree hf x
    simp only [copies, release_free, release_next] at hx hrelease ⊢
    omega
  | take hn =>
    simp only [copies, hn, Option.toList_some, Option.toList_none, List.count_nil, List.map_cons, List.count_cons,
      beq_iff_eq] at hx ⊢
    omega
  | publish ho hn =>
    have hrelease := copies_release ho x
    simp only [copies, release_free, release_next, hn, Option.toList_some, Option.toList_none, List.count_singleton,
      List.count_nil, beq_iff_eq] at hx hrelease ⊢
    omega
  | displace ho hn =>
    have hrelease := copies_release ho x
    simp only [copies, release_free, release_next, hn, hold_free, hold_next, hold_asm, hold_cur, hold_held,
      Option.toList_some, List.map_cons, List.count_cons, beq_iff_eq] at hx hrelease ⊢
    omega
  | install hh hn =>
    have hcount := count_held_erase hh x
    simp only [copies, hn, unhold_free, unhold_asm, unhold_cur, unhold_held, Option.toList_some, Option.toList_none,
      List.count_singleton, List.count_nil, beq_iff_eq] at hx ⊢
    omega
  | adopt hh ha =>
    have hcount := count_held_erase hh x
    simp only [copies, ha ((poolInv_iff s).mpr hs), adoptAsm_free, adoptAsm_next, adoptAsm_asm, adoptAsm_cur,
      adoptAsm_held, Option.toList_some, Option.toList_none, List.count_singleton, List.count_nil, beq_iff_eq] at hx ⊢
    omega
  | swap hh hc =>
    have hcount := count_held_erase hh x
    simp only [copies, hc, hold_free, hold_next, hold_asm, hold_cur, hold_held, unhold_free, unhold_next, unhold_asm,
      unhold_held, Option.toList_some, List.map_cons, List.count_cons, beq_iff_eq] at hx ⊢
    omega
  | boot =>
    have hperm : (owners (bootCells s)).Perm [0, 1, 2] := show ([2, 1, 0] : List Slot).Perm [0, 1, 2] by decide
    exact (poolInv_iff _).mp hperm x
  | reset => exact (poolInv_iff s.toReset).mp (.refl _) x

/-- Settles O15. -/
theorem stepKeepsPoolInvariant : Obligations.StepKeepsPoolInvariant := fun _ _ =>
  step_keeps PoolInv.move fun _ h => h

/-- Settles O22: the three slots have three places. -/
theorem freeCountFollowsPending : Obligations.FreeCountFollowsPending := by
  intro s h hheld hasm hcur
  have hlen := h.length_eq
  obtain ⟨a, ha⟩ := Option.isSome_iff_exists.mp hasm
  obtain ⟨c, hc⟩ := Option.isSome_iff_exists.mp hcur
  simp only [owners, hheld, ha, hc, List.length_append, Option.toList_some, List.map_nil, List.length_cons,
    List.length_nil] at hlen
  refine ⟨fun hn => ?_, fun hn => ?_⟩
  · simp only [hn, Option.toList_none, List.length_nil] at hlen
    omega
  · obtain ⟨n, hn⟩ := Option.isSome_iff_exists.mp hn
    simp only [hn, Option.toList_some, List.length_cons, List.length_nil] at hlen
    exact List.eq_nil_of_length_eq_zero (by omega)

/-! ## The canonical forms -/

theorem MemInv.move {s t : State} (h : Move s t) (hs : MemInv s) : MemInv t := by
  have hwrite (m : Memory) (hm : Memory.wf m = true) (g : Slot) (k : Nat) (bs : List Byte) (hk : k + bs.length ≤ 192) :
      Memory.wf (Memory.write m (slotAddr g k) bs) = true := Memory.wf_write m _ bs hm (slotAddr_bound g k _ hk)
  have himage (m : Memory) (hm : Memory.wf m = true) (g : Slot) (img : Image) :
      Memory.wf (Memory.write m (slotAddr g 0) img.toList) = true := hwrite m hm g 0 _ (by simp)
  unfold MemInv at *
  cases h with
  | quiet h => rwa [watched_mem h]
  | @store a c d => exact hwrite _ hs a c [d] c.isLt
  | alloc => exact himage _ hs _ _
  | boot => exact himage _ (himage _ (himage _ hs _ _) _ _) _ _
  | reset => exact wf_offArena _
  | free | publish | displace => simpa using hs
  | sync | take | install | adopt | swap => exact hs

/-- A slot put into a rising list keeps it rising. -/
theorem insertFree_pairwise {h : Slot} {l : List Slot} (hl : l.Pairwise (· < ·)) : (insertFree h l).Pairwise (· < ·) := by
  induction l with
  | nil => exact List.pairwise_singleton _ _
  | cons y ys ih =>
    obtain ⟨hy, hys⟩ := List.pairwise_cons.mp hl
    rw [insertFree]
    split_ifs with hlt heq
    · exact List.pairwise_cons.mpr ⟨List.forall_mem_cons.mpr ⟨hlt, fun z hz => hlt.trans (hy z hz)⟩, hl⟩
    · exact hl
    · refine List.pairwise_cons.mpr ⟨fun z hz => ?_, ih hys⟩
      rcases (mem_insertFree z h ys).mp hz with rfl | hz
      · exact lt_of_le_of_ne (not_lt.mp hlt) (Ne.symm heq)
      · exact hy z hz

theorem FreeRising.move {s t : State} (h : Move s t) (hs : FreeRising s) : FreeRising t := by
  unfold FreeRising at *
  cases h with
  | quiet h => rwa [watched_free h]
  | alloc => exact hs.sublist List.erase_sublist
  | free => exact insertFree_pairwise hs
  | boot => exact List.pairwise_singleton _ _
  | reset => exact show ([0, 1, 2] : List Slot).Pairwise (· < ·) by decide
  | publish | displace => simpa using hs
  | sync | store | take | install | adopt | swap => exact hs

/-- A write takes no byte its value. -/
theorem Memory.isSome_read_write {m : Memory} {a x : Nat} {bs : List Byte} (h : (Memory.read m x).isSome = true) :
    (Memory.read (Memory.write m a bs) x).isSome = true := by
  by_cases hx : a ≤ x ∧ x < a + bs.length
  · have hread := Memory.read_write_inside m a bs (x - a) (by omega)
    rw [show a + (x - a) = x by omega] at hread
    rw [hread]
    rfl
  · rwa [Memory.read_write_outside m a bs x (by omega)]

theorem ArenaFull.move {s t : State} (h : Move s t) (hs : ArenaFull s) : ArenaFull t := by
  intro x hx
  have hfull := hs x hx
  cases h with
  | quiet h => rwa [watched_mem h]
  | store => exact Memory.isSome_read_write hfull
  | alloc => exact Memory.isSome_read_write hfull
  | boot => exact Memory.isSome_read_write (Memory.isSome_read_write (Memory.isSome_read_write hfull))
  | reset => rw [toReset_mem, read_offArena, if_pos hx]; rfl
  | free | publish | displace => simpa using hfull
  | sync | take | install | adopt | swap => exact hfull

theorem step_keeps_memInv {s t : State} : MemInv s → step s = .next t → MemInv t := step_keeps MemInv.move fun _ h => h

theorem step_keeps_freeRising {s t : State} : FreeRising s → step s = .next t → FreeRising t :=
  step_keeps FreeRising.move fun _ h => h

theorem step_keeps_arenaFull {s t : State} : ArenaFull s → step s = .next t → ArenaFull t :=
  step_keeps ArenaFull.move fun _ h => h

/-- Settles O16. -/
theorem stepKeepsCanonicalForms : Obligations.StepKeepsCanonicalForms := fun _ _ hm hf hstep =>
  ⟨step_keeps_memInv hm hstep, step_keeps_freeRising hf hstep, fun ha => step_keeps_arenaFull ha hstep⟩

/-! ## The fatal cause (R32) -/

theorem FatalInv.move {s t : State} (h : Move s t) (hs : FatalInv s) : FatalInv t := by
  unfold FatalInv at *
  cases h with
  | quiet h => rwa [watched_fatal h, watched_halted h]
  | reset => exact ⟨nofun, nofun⟩
  | free | publish | displace => simpa using hs
  | sync | store | alloc | take | install | adopt | swap | boot => exact hs

/-- Settles O17: a violation sets both, and RESET clears both. -/
theorem stepKeepsFatalWithHalted : Obligations.StepKeepsFatalWithHalted := fun _ _ =>
  step_keeps FatalInv.move fun _ _ => ⟨fun _ => rfl, fun _ => rfl⟩

/-! ## The bytes received of the current frame (R103, R207) -/

/-- A buffer that is being assembled is not free. -/
theorem PoolInv.free_ne_asm {s : State} (h : PoolInv s) {a g : Slot} (ha : s.asm = some a) (hg : g ∈ s.free) : g ≠ a := by
  rintro rfl
  have hone := (poolInv_iff s).mp h g
  have hfree := List.count_pos_iff.mpr hg
  simp only [copies, ha, Option.toList_some, List.count_singleton_self] at hone
  omega

/-- A released handle leaves the assembly buffer as it is, or leaves none. -/
theorem asm_of_release {who : Agent} {g a : Slot} {s : State} (h : (s.release who g).asm = some a) : s.asm = some a := by
  unfold State.release at h
  split_ifs at h
  · exact h
  · exact h
  · exact h

theorem ReceivedInv.move {s t : State} (h : Move s t) (hpool : PoolInv s) (hs : ReceivedInv s) : ReceivedInv t := by
  intro c a hr ha k hk
  cases h with
  | quiet h =>
    rw [watched_mem h]
    exact hs c a ((watched_rxState h).symm.trans hr) ((watched_asm h).symm.trans ha) k hk
  | sync =>
    cases hr
    exact absurd hk (Nat.not_lt_zero k)
  | @store b cur d _ hd hcur hb hnext =>
    obtain rfl : b = a := Option.some.inj (hb.symm.trans ha)
    have hle : c.val ≤ cur.val + 1 := by
      obtain heq | ⟨c', hc', heq⟩ := hnext
      · cases heq.symm.trans hr; omega
      · cases heq.symm.trans hr; omega
    rcases Nat.lt_or_ge k cur.val with hlt | hge
    · have hne : slotAddr b k ≠ slotAddr b cur.val := by unfold slotAddr; omega
      simp only [Memory.read_write_byte_ne _ _ hne]
      exact hs cur b hcur hb k hlt
    · obtain rfl : k = cur.val := by omega
      exact ⟨d, Memory.read_write_byte_same _ _ d, hd⟩
  | @alloc _ g _ img hf =>
    have hin : ¬ inSlot g (slotAddr a k) := not_inSlot_slotAddr (hpool.free_ne_asm ha hf) (by omega)
    simp only [Memory.read_write_image_of_not_inSlot _ _ hin]
    exact hs c a hr ha k hk
  | free | publish | displace =>
    simpa using hs c a (by simpa using hr) (asm_of_release (by simpa using ha)) k hk
  | take | install | swap => exact hs c a hr ha k hk
  | adopt | boot | reset => cases hr

/-- Settles O18, together with the pool invariant it needs. -/
theorem stepKeepsReceivedBytes : Obligations.StepKeepsReceivedBytes := fun _ _ hpool hs hstep =>
  (step_keeps (P := fun s => PoolInv s ∧ ReceivedInv s) (fun hm h => ⟨h.1.move hm, h.2.move hm h.1⟩)
    (fun _ h => h) ⟨hpool, hs⟩ hstep).2

end Sys2Proof.Machine
end

section
/-! PROOFS of the statements about good states: what the block does from one, and that it stays in one (spec/10_state.md
section 9, spec/60_exceptions.md section 3). -/

namespace Sys2Proof.Machine

/-! ## Slots that differ (R163) -/

theorem PoolInv.free_ne_cur {s : State} (h : PoolInv s) {c g : Slot} (hc : s.cur = some c) (hg : g ∈ s.free) : g ≠ c := by
  rintro rfl
  have hone := (poolInv_iff s).mp h g
  have hfree := List.count_pos_iff.mpr hg
  simp only [copies, hc, Option.toList_some, List.count_singleton_self] at hone
  omega

theorem PoolInv.next_ne_cur {s : State} (h : PoolInv s) {c g : Slot} (hc : s.cur = some c) (hn : s.next = some g) :
    g ≠ c := by
  rintro rfl
  have hone := (poolInv_iff s).mp h g
  simp only [copies, hc, hn, Option.toList_some, List.count_singleton_self] at hone
  omega

theorem PoolInv.asm_ne_cur {s : State} (h : PoolInv s) {c g : Slot} (hc : s.cur = some c) (ha : s.asm = some g) :
    g ≠ c := by
  rintro rfl
  have hone := (poolInv_iff s).mp h g
  simp only [copies, hc, ha, Option.toList_some, List.count_singleton_self] at hone
  omega

theorem OnlySlot.mem {s : State} {g : Slot} (ho : OnlySlot s g) : s.next = some g ∨ g ∈ s.free :=
  ho.imp And.left fun ⟨_, hf⟩ => hf ▸ List.mem_singleton_self g

theorem OnlySlot.ne_cur {s : State} {c g : Slot} (ho : OnlySlot s g) (h : PoolInv s) (hc : s.cur = some c) : g ≠ c :=
  ho.mem.elim (h.next_ne_cur hc) (h.free_ne_cur hc)

theorem OnlySlot.ne_asm {s : State} {a g : Slot} (ho : OnlySlot s g) (h : PoolInv s) (ha : s.asm = some a) : g ≠ a :=
  ho.mem.elim (fun hn hga => h.next_ne_asm (hga ▸ hn) ha) (h.free_ne_asm ha)

/-- Between activations there is one slot a producer of `next` can get (R165). -/
theorem exists_onlySlot {s : State} (h : PoolInv s) (hheld : s.held = []) (ha : s.asm.isSome = true)
    (hc : s.cur.isSome = true) : ∃ g, OnlySlot s g := by
  obtain ⟨hnone, hsome⟩ := freeCountFollowsPending s h hheld ha hc
  cases hn : s.next with
  | none =>
    obtain ⟨g, hg⟩ := List.length_eq_one_iff.mp (hnone hn)
    exact ⟨g, .inr ⟨hn, hg⟩⟩
  | some g => exact ⟨g, .inl ⟨hn, hsome (by rw [hn]; rfl)⟩⟩

/-- In a full arena every slot can be read. -/
theorem ArenaFull.slotBytes {s : State} (h : ArenaFull s) (g : Slot) : ∃ bs, slotBytes s g = some bs :=
  Memory.readBlock_isSome fun i hi => h _ (by unfold slotAddr; omega)

/-- An arena whose slots can all be read is full. -/
theorem arenaFull_of_slotBytes {s : State} (h : ∀ g, ∃ bs, Machine.slotBytes s g = some bs) : ArenaFull s := by
  intro x hx
  obtain ⟨bs, hbs⟩ := h ⟨x / 192, by omega⟩
  obtain ⟨hlen, hread⟩ := Memory.readBlock_some hbs
  have haddr : slotAddr ⟨x / 192, by omega⟩ 0 + x % 192 = x := by simp only [slotAddr]; omega
  have hx' := hread (x % 192) (by omega)
  rw [haddr] at hx'
  rw [hx', isSome_getElem?, hlen]
  omega

/-! ## The block move from a good state in RUN (R264) -/

/-- What one coarse block move makes of a state in RUN between activations, the free choices aside. -/
inductive BlockMove (s : State) : State → Prop
  | idle (hf : s.rxFifo = []) : BlockMove s s
  | sync {rest : List Byte} (hf : s.rxFifo = 0xFF#8 :: rest) :
      BlockMove s { s with rxFifo := rest, rxState := .filling 0 }
  | drop {b : Byte} {rest : List Byte} (hf : s.rxFifo = b :: rest) (hb : b ≠ 0xFF#8) (hr : s.rxState = .awaitingSync) :
      BlockMove s { s with rxFifo := rest }
  | store {b : Byte} {rest : List Byte} {c c' : Fin 192} {a : Slot} (hf : s.rxFifo = b :: rest) (hb : b ≠ 0xFF#8)
      (hr : s.rxState = .filling c) (hc : c'.val = c.val + 1) (ha : s.asm = some a) :
      BlockMove s { s with
        rxFifo := rest, mem := Memory.write s.mem (slotAddr a c.val) [b], rxState := .filling c' }
  | complete {b : Byte} {rest : List Byte} {a g : Slot} (hf : s.rxFifo = b :: rest) (hb : b ≠ 0xFF#8)
      (hr : s.rxState = .filling 191) (ha : s.asm = some a) (ho : OnlySlot s g) :
      BlockMove s { s with
        rxFifo := rest
        mem := Memory.write (Memory.write s.mem (slotAddr a 191) [b]) (slotAddr g 0) Config.asmFill.toList
        next := some a, asm := some g, free := [], noticePending := s.noticePending + 1, rxState := .awaitingSync }
  | display {g : RowPixels} {evs : List LineEvent} (hf : s.rxFifo = []) (he : evs = rowEvents s.row g)
      (hrow : s.row ≠ 7) : BlockMove s { rowSent evs s with row := s.row + 1 }
  | wrap {g : RowPixels} {evs : List LineEvent} (hf : s.rxFifo = []) (he : evs = rowEvents s.row g) (hrow : s.row = 7)
      (hn : s.next = none) : BlockMove s { rowSent evs s with row := 0 }
  | swap {g : RowPixels} {evs : List LineEvent} {c h : Slot} (hf : s.rxFifo = []) (he : evs = rowEvents s.row g)
      (hrow : s.row = 7) (hn : s.next = some h) (hc : s.cur = some c) :
      BlockMove s { rowSent evs s with row := 0, cur := some h, next := none, free := insertFree c s.free }
  | saverIdle {g : Slot} (hf : s.rxFifo = []) (ho : OnlySlot s g) :
      BlockMove s { s with
        saverDue := false, mem := Memory.write s.mem (slotAddr g 0) (Config.saverFrame s.offset).toList
        next := some g, free := [], offset := nextOffset s.offset }
  | saverActive (hf : s.rxFifo = []) : BlockMove s (saverActive { s with saverDue := false })
  | notice (hf : s.rxFifo = []) : BlockMove s (bumpCounter { s with noticePending := s.noticePending - 1 })

theorem RxState.awaiting_or_filling (r : RxState) : r = .awaitingSync ∨ ∃ c, r = .filling c := by
  cases r with
  | awaitingSync => exact .inl rfl
  | filling c => exact .inr ⟨c, rfl⟩

section FromRunning
variable {s : State} (hp : s.phase = .run) (hrest : AtRest s) (hrun : Running s)
include hp hrest hrun

theorem exists_blockMove_byte {b : Byte} {rest : List Byte} (hf : s.rxFifo = b :: rest) :
    ∃ t, exec (decodeByte b) { s with rxFifo := rest } = .next t ∧ BlockMove s t := by
  have hs : ({ s with rxFifo := rest } : State).phase ≠ .halted := by simp [hp]
  obtain ⟨_, _, hheld⟩ := hrest
  obtain ⟨a, ha⟩ := Option.isSome_iff_exists.mp hrun.asmSome
  rw [decodeByte_eq]
  split
  · next hb => exact ⟨_, exec_sync hs, .sync (hb ▸ hf)⟩
  · next hb =>
    obtain hr | ⟨c, hr⟩ := s.rxState.awaiting_or_filling
    · refine ⟨_, ?_, .drop hf hb hr⟩
      rw [exec_data hs hb, dataByte_awaitingSync (s := { s with rxFifo := rest }) b hr, Res.outcome_ok]
    · rcases Nat.lt_or_ge c.val 191 with hc | hc
      · have hc' : (⟨c.val + 1, by omega⟩ : Fin 192).val = c.val + 1 := rfl
        exact ⟨_, exec_data_filling hs hb hr hc' ha, .store hf hb hr hc' ha⟩
      · obtain rfl : c = 191 := Fin.ext (show c.val = 191 by omega)
        obtain ⟨g, ho⟩ := exists_onlySlot hrun.pool hheld hrun.asmSome hrun.curSome
        exact ⟨_, exec_data_last hs hb hr ha (by simp [hheld]) (ho.ne_asm hrun.pool ha) ho, .complete hf hb hr ha ho⟩

omit hrest in
theorem exists_blockMove_display (hf : s.rxFifo = []) (hd : s.dispDue = true) :
    ∃ t, exec .displayTick s = .next t ∧ BlockMove s t := by
  obtain ⟨c, hc⟩ := Option.isSome_iff_exists.mp hrun.curSome
  obtain ⟨bs, hb⟩ := hrun.full.slotBytes c
  by_cases hrow : s.row = 7
  · cases hn : s.next with
    | none => exact ⟨_, exec_displayTick_wrap hp hd hc hb hrow hn, .wrap hf rfl hrow hn⟩
    | some h =>
      have hfree : c ∉ s.free := fun hm => hrun.pool.free_ne_cur hc hm rfl
      exact ⟨_, exec_displayTick_swap hp hd hc hb hrow hfree hn, .swap hf rfl hrow hn hc⟩
  · exact ⟨_, exec_displayTick_row hp hd hc hb hrow, .display hf rfl hrow⟩

theorem exists_blockMove_saver (hf : s.rxFifo = []) (hd : s.saverDue = true) :
    ∃ t, exec .saverTick s = .next t ∧ BlockMove s t := by
  obtain ⟨_, _, hheld⟩ := hrest
  obtain ⟨g, ho⟩ := exists_onlySlot hrun.pool hheld hrun.asmSome hrun.curSome
  by_cases hc : s.changes = s.lastSeen
  · exact ⟨_, exec_saverTick_idle hp hd hc ho, .saverIdle hf ho⟩
  · exact ⟨_, exec_saverTick_active hp hd hc, .saverActive hf⟩

end FromRunning

/-- Between activations in RUN the block move of a running block succeeds. -/
theorem exists_blockMove {s : State} (hp : s.phase = .run) (hrest : AtRest s) (hrun : Running s) :
    ∃ d t, (coarsePlan s).run = .next t ∧ BlockMove { s with draws := d } t := by
  obtain ⟨hacts, hlocks, _⟩ := id hrest
  by_cases hf : s.rxFifo = []
  case neg =>
    obtain ⟨b, rest, hf⟩ := List.exists_cons_of_ne_nil hf
    obtain ⟨t, ht, hmove⟩ := exists_blockMove_byte hp hrest hrun hf
    exact ⟨s.draws, t, (run_coarsePlan_rx hp hacts hlocks hf).trans ht, hmove⟩
  case pos =>
    have hdisp := dispatch_rest hp hacts hlocks hf
    split_ifs at hdisp with hboth hd hv hn
    · have hrun' : Running { s with draws := s.draws + 1 } :=
        ⟨hrun.pool, hrun.asmSome, hrun.curSome, hrun.offsetLow, hrun.offsetHigh, hrun.rows, hrun.control, hrun.full⟩
      rcases run_coarsePlan_tie hdisp with heq | heq
      · obtain ⟨t, ht, hmove⟩ := exists_blockMove_display (s := { s with draws := s.draws + 1 }) hp hrun' hf hboth.1
        exact ⟨_, t, heq.trans ht, hmove⟩
      · obtain ⟨t, ht, hmove⟩ := exists_blockMove_saver (s := { s with draws := s.draws + 1 }) hp hrest hrun' hf hboth.2
        exact ⟨_, t, heq.trans ht, hmove⟩
    · obtain ⟨t, ht, hmove⟩ := exists_blockMove_display hp hrun hf hd
      exact ⟨s.draws, t, (run_coarsePlan_start hdisp nofun).trans ht, hmove⟩
    · obtain ⟨t, ht, hmove⟩ := exists_blockMove_saver hp hrest hrun hf hv
      exact ⟨s.draws, t, (run_coarsePlan_start hdisp nofun).trans ht, hmove⟩
    · exact ⟨s.draws, _, (run_coarsePlan_start hdisp nofun).trans (exec_noticeChange hp hn), .notice hf⟩
    · refine ⟨s.draws, s, ?_, .idle hf⟩
      rw [coarsePlan, hdisp]
      rfl

/-! ## Steps from good states -/

/-- What a step makes of a good state: RESET, BOOT, a block move, or a move of ENV, which touches the stimulus, the received
bytes and the due ticks alone. -/
inductive GoodStep (s : State) : State → Prop
  | reset {r : List Stim} (hs : s.stim = .env .reset :: r) : GoodStep s ({ s with stim := r } : State).toReset
  | env {m : Stim} {r : List Stim} {f : List Byte} {d v : Bool} (hs : s.stim = m :: r) :
      GoodStep s { s with stim := r, rxFifo := f, dispDue := d, saverDue := v }
  | boot (hp : s.phase = .off) : GoodStep s (booted s)
  | block {d : Nat} {t : State} (hp : s.phase = .run) (h : BlockMove { s with draws := d } t) : GoodStep s t

theorem exists_goodStep_env {s : State} {m : EnvMove} {r : List Stim} (hs : s.stim = .env m :: r) :
    ∃ t, step s = .next t ∧ GoodStep s t := by
  rw [step_of_stim_env hs]
  cases m with
  | reset => exact ⟨_, rfl, .reset hs⟩
  | deliver b =>
    refine ⟨_, rfl, ?_⟩
    split
    · exact .env (f := s.rxFifo ++ [b]) (d := s.dispDue) (v := s.saverDue) hs
    · exact .env (f := s.rxFifo) (d := s.dispDue) (v := s.saverDue) hs
  | dispDue =>
    refine ⟨_, rfl, ?_⟩
    split
    · exact .env (f := s.rxFifo) (d := true) (v := s.saverDue) hs
    · exact .env (f := s.rxFifo) (d := s.dispDue) (v := s.saverDue) hs
  | saverDue =>
    refine ⟨_, rfl, ?_⟩
    split
    · exact .env (f := s.rxFifo) (d := s.dispDue) (v := true) hs
    · exact .env (f := s.rxFifo) (d := s.dispDue) (v := s.saverDue) hs

/-- The coarse move of a good state: BOOT in OFF, the block move in RUN. -/
theorem exists_goodStep_coarse {s : State} (h : GoodState s) : ∃ t, (coarsePlan s).run = .next t ∧ GoodStep s t := by
  rcases h.phase with hp | hp
  · exact ⟨_, (run_coarsePlan_start (dispatch_off hp) nofun).trans (exec_boot hp), .boot hp⟩
  · obtain ⟨d, t, ht, hmove⟩ := exists_blockMove hp h.rest (h.run hp)
    exact ⟨t, ht, .block hp hmove⟩

theorem GoodState.live {s : State} (h : GoodState s) : s.phase ≠ .halted := by
  rcases h.phase with hp | hp <;> simp [hp]

/-- Every good state has a step, which is one of these. -/
theorem exists_goodStep {s : State} (h : GoodState s) : ∃ t, step s = .next t ∧ GoodStep s t := by
  cases hs : s.stim with
  | nil =>
    rw [step_of_stim_nil hs h.live]
    exact exists_goodStep_coarse h
  | cons m r =>
    cases m with
    | env m => exact exists_goodStep_env hs
    | tick => exact absurd (hs ▸ List.mem_cons_self) h.atomic
    | settle =>
      by_cases hd : dispatch s = .idle
      · exact ⟨_, step_of_stim_settle_idle hs hd, .env (f := s.rxFifo) (d := s.dispDue) (v := s.saverDue) hs⟩
      · rw [step_of_stim_settle hs hd]
        exact exists_goodStep_coarse h

theorem GoodState.goodStep {s t : State} (h : GoodState s) (hstep : step s = .next t) : GoodStep s t := by
  obtain ⟨u, hu, hgood⟩ := exists_goodStep h
  cases hu.symm.trans hstep
  exact hgood

/-! ## Good states stay good (R38) -/

/-- A block move does not touch the stimulus, the phase, and what is in the middle. -/
theorem BlockMove.frame {s t : State} (h : BlockMove s t) :
    t.stim = s.stim ∧ t.phase = s.phase ∧ t.fatal = s.fatal ∧ t.acts = s.acts ∧ t.locks = s.locks ∧ t.held = s.held := by
  cases h <;> exact ⟨rfl, rfl, rfl, rfl, rfl, rfl⟩

/-- No producer and no consumer is left without its buffer. -/
theorem BlockMove.buffers {s t : State} (h : BlockMove s t) (ha : s.asm.isSome = true) (hc : s.cur.isSome = true) :
    t.asm.isSome = true ∧ t.cur.isSome = true := by
  cases h with
  | complete => exact ⟨rfl, hc⟩
  | swap => exact ⟨ha, rfl⟩
  | _ => exact ⟨ha, hc⟩

theorem nextOffset_bounds {o : Int} (hlow : -120 ≤ o) (hhigh : o ≤ 30) : -120 ≤ nextOffset o ∧ nextOffset o ≤ 30 := by
  unfold nextOffset Config.offsetMin Config.offsetInit
  split <;> omega

/-- The offset stays in its range (R29). -/
theorem BlockMove.offset {s t : State} (h : BlockMove s t) (hlow : -120 ≤ s.offset) (hhigh : s.offset ≤ 30) :
    -120 ≤ t.offset ∧ t.offset ≤ 30 := by
  cases h with
  | saverIdle => exact nextOffset_bounds hlow hhigh
  | saverActive => exact show (-120 : Int) ≤ Config.offsetInit ∧ Config.offsetInit ≤ 30 by decide
  | _ => exact ⟨hlow, hhigh⟩

/-- The row sent is the one row lit afterwards, and the control lines are idle (R184, R189). -/
theorem lines_after_row {ls : Lines} {row : Fin 8} (hrows : ∀ i : Fin 8, ls.rows[i] = true → i = row + 7)
    (hcontrol : ControlIdle ls) {g : RowPixels} {evs : List LineEvent} (he : evs = rowEvents row g) :
    (∀ i : Fin 8, (Lines.afterAll ls evs).rows[i] = true → i = row) ∧ ControlIdle (Lines.afterAll ls evs) := by
  subst he
  obtain ⟨_, hprev, hother, hsb, hrst, hsck, hlat⟩ := sendRowLeavesTheLines ls row g
  refine ⟨fun i hi => ?_, hsb.trans hcontrol.1, hrst.trans hcontrol.2.1, hsck, hlat⟩
  by_contra hne
  by_cases hi' : i = row + 7
  · subst hi'
    exact Bool.false_ne_true (hprev.symm.trans hi)
  · exact hi' (hrows i ((hother i hne hi').symm.trans hi))

/-- At most the row sent last is lit, and the control lines stay as DRV_INIT left them. -/
theorem BlockMove.lines {s t : State} (h : BlockMove s t) (hrows : ∀ i : Fin 8, s.lines.rows[i] = true → i = s.row + 7)
    (hcontrol : ControlIdle s.lines) :
    (∀ i : Fin 8, t.lines.rows[i] = true → i = t.row + 7) ∧ ControlIdle t.lines := by
  cases h with
  | display _ he _ =>
    obtain ⟨hlit, hidle⟩ := lines_after_row hrows hcontrol he
    exact ⟨fun i hi => (hlit i hi).trans (show s.row = s.row + 1 + 7 by omega), hidle⟩
  | wrap _ he hlast | swap _ he hlast =>
    obtain ⟨hlit, hidle⟩ := lines_after_row hrows hcontrol he
    exact ⟨fun i hi => (hlit i hi).trans hlast, hidle⟩
  | _ => exact ⟨hrows, hcontrol⟩

/-- A good state in OFF. -/
theorem good_of_off {s : State} (ht : Stim.tick ∉ s.stim) (hr : AtRest s) (hm : MemInv s) (hf : s.fatal = none)
    (hp : s.phase = .off) (hrows : ∀ i : Fin 8, s.lines.rows[i] = false) : GoodState s where
  atomic := ht
  rest := hr
  mem := hm
  fatalNone := hf
  phase := .inl hp
  off _ := hrows
  run h := nomatch hp.symm.trans h

theorem dark_reset : ∀ i : Fin 8, State.reset.lines.rows[i] = false := by decide

theorem good_reset : GoodState State.reset :=
  good_of_off List.not_mem_nil ⟨rfl, rfl, rfl⟩ (wf_offArena 0) rfl rfl dark_reset

theorem good_toReset {s : State} (ht : Stim.tick ∉ s.stim) : GoodState s.toReset :=
  good_of_off ht ⟨rfl, rfl, rfl⟩ (wf_offArena _) rfl rfl dark_reset

/-- BOOT leads from a good state in OFF to a running block (R291). -/
theorem running_booted {s : State} (hrows : ∀ i : Fin 8, s.lines.rows[i] = false) : Running (booted s) where
  pool := show ([2, 1, 0] : List Slot).Perm [0, 1, 2] by decide
  asmSome := rfl
  curSome := rfl
  offsetLow := show (-120 : Int) ≤ Config.offsetInit by decide
  offsetHigh := show Config.offsetInit ≤ (30 : Int) by decide
  rows i hi := by
    rw [booted_lines] at hi
    exact nomatch (hrows i).symm.trans hi
  control := by
    rw [booted_lines]
    exact ⟨rfl, rfl, rfl, rfl⟩
  full := arenaFull_of_slotBytes fun g => by
    obtain ⟨h0, h1, h2⟩ := slotBytes_booted s
    match g with
    | 0 => exact ⟨_, h0⟩
    | 1 => exact ⟨_, h1⟩
    | 2 => exact ⟨_, h2⟩

/-- Settles O19: the pool, the arena and its bytes by the invariants of every step, the other cells by the form of the step. -/
theorem stepKeepsGoodState : Obligations.StepKeepsGoodState := by
  intro s t h hstep
  have hmem : MemInv t := step_keeps_memInv h.mem hstep
  cases h.goodStep hstep with
  | reset hs => exact good_toReset fun hm => h.atomic (hs ▸ List.mem_cons_of_mem _ hm)
  | @env m r f d v hs =>
    exact
      { atomic := fun hm => h.atomic (hs ▸ List.mem_cons_of_mem _ hm)
        rest := h.rest, mem := hmem, fatalNone := h.fatalNone, phase := h.phase, off := h.off
        run := fun hp =>
          have hrun := h.run hp
          ⟨hrun.pool, hrun.asmSome, hrun.curSome, hrun.offsetLow, hrun.offsetHigh, hrun.rows, hrun.control, hrun.full⟩ }
  | boot hp =>
    exact
      { atomic := h.atomic, rest := ⟨h.rest.1, h.rest.2.1, rfl⟩, mem := hmem, fatalNone := h.fatalNone, phase := .inr rfl
        off := nofun, run := fun _ => running_booted (h.off hp) }
  | block hp hmove =>
    have hrun := h.run hp
    obtain ⟨hstim, hphase, hfatal, hacts, hlocks, hheld⟩ := hmove.frame
    obtain ⟨hasm, hcur⟩ := hmove.buffers hrun.asmSome hrun.curSome
    obtain ⟨hlow, hhigh⟩ := hmove.offset hrun.offsetLow hrun.offsetHigh
    obtain ⟨hrows, hcontrol⟩ := hmove.lines hrun.rows hrun.control
    have hp' : t.phase = .run := hphase.trans hp
    exact
      { atomic := fun hm => h.atomic (hstim ▸ hm)
        rest := ⟨hacts.trans h.rest.1, hlocks.trans h.rest.2.1, hheld.trans h.rest.2.2⟩
        mem := hmem, fatalNone := hfatal.trans h.fatalNone, phase := .inr hp'
        off := fun ho => nomatch hp'.symm.trans ho
        run := fun _ => ⟨stepKeepsPoolInvariant s t hrun.pool hstep, hasm, hcur, hlow, hhigh, hrows, hcontrol,
          step_keeps_arenaFull hrun.full hstep⟩ }

/-- A run is its first step, then the rest of the run. -/
theorem coreRun_succ {M : Host.Core} {s t : M.State} (h : M.step s = .next t) (n : Nat) : M.run (n + 1) s = M.run n t := by
  rw [Host.Core.run, h]

theorem run_succ {s t : State} (h : step s = .next t) (n : Nat) : Sys2Proof.core.run (n + 1) s = Sys2Proof.core.run n t :=
  coreRun_succ (M := Sys2Proof.core) h n

/-- A run from a good state goes on for ever, through good states. -/
theorem exists_run_good (n : Nat) {s : State} (h : GoodState s) : ∃ t, Sys2Proof.core.run n s = .next t ∧ GoodState t := by
  induction n generalizing s with
  | zero => exact ⟨s, rfl, h⟩
  | succ n ih =>
    obtain ⟨u, hu, _⟩ := exists_goodStep h
    obtain ⟨t, ht, hgood⟩ := ih (stepKeepsGoodState s u h hu)
    exact ⟨t, (run_succ hu n).trans ht, hgood⟩

/-- Settles O21. -/
theorem goodRunsNeverHalt : Obligations.GoodRunsNeverHalt := fun n _ h =>
  have ⟨t, ht, hgood⟩ := exists_run_good n h
  ⟨t, ht, hgood.live, hgood.fatalNone⟩

/-- Settles O20. -/
theorem resetMeetsTheInvariants : Obligations.ResetMeetsTheInvariants :=
  ⟨.refl _, wf_offArena 0, fun x hx => by
      have hread : Memory.read State.reset.mem x = some (Config.offByte 0 x) := (read_offArena 0 x).trans (if_pos hx)
      rw [hread]
      rfl,
    show ([0, 1, 2] : List Slot).Pairwise (· < ·) by decide, ⟨nofun, nofun⟩, nofun, good_reset⟩

/-! ## The image being displayed (R225) -/

/-- A block move writes into the assembly buffer and into the slot of a producer of `next`, never into the current buffer. -/
theorem BlockMove.read_cur {s t : State} {c : Slot} (h : BlockMove s t) (hpool : PoolInv s) (hc : s.cur = some c) {x : Nat}
    (hx : inSlot c x) : Memory.read t.mem x = Memory.read s.mem x := by
  have hbyte {m : Memory} {a : Slot} {k : Nat} {b : Byte} (ha : s.asm = some a) (hk : k < 192) :
      Memory.read (Memory.write m (slotAddr a k) [b]) x = Memory.read m x :=
    Memory.read_write_byte_ne m b fun he => not_inSlot_slotAddr (hpool.asm_ne_cur hc ha).symm hk (he ▸ hx)
  have himage {m : Memory} {g : Slot} {img : Image} (ho : OnlySlot s g) :
      Memory.read (Memory.write m (slotAddr g 0) img.toList) x = Memory.read m x := by
    refine Memory.read_write_image_of_not_inSlot m img fun hg => ho.ne_cur hpool hc (Fin.ext ?_)
    unfold inSlot at hg hx
    omega
  cases h with
  | @store _ _ cursor _ _ _ _ _ _ ha => exact hbyte ha cursor.isLt
  | complete _ _ _ ha ho => exact (himage ho).trans (hbyte ha (by decide))
  | saverIdle _ ho => exact himage ho
  | _ => rfl

/-- Settles O23. -/
theorem currentImageIsNeverWritten : Obligations.CurrentImageIsNeverWritten := by
  intro s t c h hp hc hstep hp' _ x hx
  cases h.goodStep hstep with
  | reset => cases hp'
  | env => rfl
  | boot hoff => exact nomatch hp.symm.trans hoff
  | block _ hmove => exact hmove.read_cur (h.run hp).pool hc hx

end Sys2Proof.Machine
end

section
/-! PROOFS of the statements about activations at primitive-step grain (spec/60_exceptions.md section 3, spec/43_matrix_driver.md
R188). -/

namespace Sys2Proof.Machine

/-! ## Operations that do not look at the driver's cells -/

/-- The lines, the trace and the activations in progress, replaced. -/
def State.redriven (ls : Lines → Lines) (tr : List LineEvent → List LineEvent) (as : List Activation → List Activation)
    (s : State) : State :=
  { s with lines := ls s.lines, trace := tr s.trace, acts := as s.acts }

/-- Two results that differ by a change of the state they end in, or of the state they raise in. -/
inductive Res.Maps {α : Type} (w : State → State) : Res α → Res α → Prop
  | ok (a : α) (t : State) : Maps w (.ok a t) (.ok a (w t))
  | raised (c : Cause) (u : State) : Maps w (.raised (u.raiseViolation c)) (.raised ((w u).raiseViolation c))
  | fault (f : Fault) : Maps w (.fault f) (.fault f)
  | refused (r : Refusal) : Maps w (.refused r) (.refused r)

theorem Res.Maps.bind {α β : Type} {w : State → State} {m m' : Res α} {k : α → State → Res β} (hm : m.Maps w m')
    (hk : ∀ a u, (k a u).Maps w (k a (w u))) : (m.bind k).Maps w (m'.bind k) := by
  cases hm with
  | ok a t => exact hk a t
  | raised c u => exact .raised c u
  | fault f => exact .fault f
  | refused r => exact .refused r

section Redriven
variable (ls : Lines → Lines) (tr : List LineEvent → List LineEvent) (as : List Activation → List Activation) (s : State)

theorem release_redriven (who : Agent) (h : Slot) :
    (s.redriven ls tr as).release who h = (s.release who h).redriven ls tr as := by
  simp only [State.release, apply_ite (State.redriven ls tr as)]
  rfl

theorem maps_raise {α : Type} (c : Cause) :
    (raise c s : Res α).Maps (State.redriven ls tr as) (raise c (s.redriven ls tr as)) := .raised c s

theorem maps_critical {α : Type} (who : Agent) (cells : List Shared) {body : State → Res α}
    (h : ∀ u, (body u).Maps (State.redriven ls tr as) (body (u.redriven ls tr as))) :
    (critical who cells body s).Maps (State.redriven ls tr as) (critical who cells body (s.redriven ls tr as)) :=
  (h (s.enterLock who cells)).bind fun a u => .ok a u.leaveLock

theorem maps_poolFree (who : Agent) (h : Slot) :
    (poolFree who h s).Maps (State.redriven ls tr as) (poolFree who h (s.redriven ls tr as)) := by
  have hguard : (owns who h (s.redriven ls tr as) && !(s.redriven ls tr as).free.contains h) =
      (owns who h s && !s.free.contains h) := rfl
  rw [poolFree, poolFree, hguard, release_redriven]
  split
  · exact .ok () { s.release who h with free := insertFree h s.free }
  · exact maps_raise ls tr as s _

theorem maps_nextTake (who : Agent) :
    (nextTake who s).Maps (State.redriven ls tr as) (nextTake who (s.redriven ls tr as)) := by
  cases hn : s.next with
  | none =>
    rw [nextTake_empty who hn, nextTake_empty (s := s.redriven ls tr as) who hn]
    exact .ok none s
  | some h =>
    rw [nextTake_occupied who hn, nextTake_occupied (s := s.redriven ls tr as) who hn]
    exact .ok (some h) (State.hold who h { s with next := none })

theorem maps_nextReplace (who : Agent) (h : Slot) :
    (nextReplace who h s).Maps (State.redriven ls tr as) (nextReplace who h (s.redriven ls tr as)) := by
  have hguard : (owns who h (s.redriven ls tr as) && !(s.redriven ls tr as).free.contains h) =
      (owns who h s && !s.free.contains h) := rfl
  have hnext : (s.redriven ls tr as).next = s.next := rfl
  rw [nextReplace, nextReplace, hguard, hnext, release_redriven]
  split
  · split
    · exact .ok () { s.release who h with next := some h }
    · next o _ => exact maps_poolFree ls tr as (State.hold who o { s.release who h with next := some h }) who o
  · exact maps_raise ls tr as s _

theorem maps_poolAlloc (who : Agent) (img : Image) :
    (poolAlloc who img s).Maps (State.redriven ls tr as) (poolAlloc who img (s.redriven ls tr as)) := by
  have hchoose : chooseFree (s.redriven ls tr as) = chooseFree s := rfl
  rw [poolAlloc, poolAlloc, hchoose]
  split
  · exact maps_raise ls tr as s _
  · next h d _ =>
    exact .ok h { s with
      free := s.free.erase h, draws := d, mem := Memory.write s.mem (slotAddr h 0) img.toList, held := (who, h) :: s.held }

theorem maps_frameSwap : (frameSwap s).Maps (State.redriven ls tr as) (frameSwap (s.redriven ls tr as)) := by
  refine maps_critical ls tr as s _ _ fun u => (maps_nextTake ls tr as u _).bind fun x v => ?_
  cases x with
  | none => exact .ok () v
  | some h =>
    have hcur : (v.redriven ls tr as).cur = v.cur := rfl
    simp only [hcur]
    split
    · exact maps_raise ls tr as v _
    · next old _ => exact maps_poolFree ls tr as (State.hold .disp old { v.unhold .disp h with cur := some h }) _ _

theorem maps_swapAtWrap : (swapAtWrap s).Maps (State.redriven ls tr as) (swapAtWrap (s.redriven ls tr as)) := by
  have hrow : (s.redriven ls tr as).row = s.row := rfl
  rw [swapAtWrap, swapAtWrap, hrow]
  split
  · exact maps_frameSwap ls tr as s
  · exact .ok () s

theorem maps_saverIdle : (saverIdle s).Maps (State.redriven ls tr as) (saverIdle (s.redriven ls tr as)) := by
  refine (maps_nextTake ls tr as s _).bind fun x u => Res.Maps.bind ?_ fun _ v =>
    (maps_poolAlloc ls tr as v _ (Config.saverFrame v.offset)).bind fun h w =>
      .ok () { w.unhold .saver h with next := some h, offset := nextOffset w.offset }
  cases x with
  | none => exact .ok () u
  | some h => exact maps_poolFree ls tr as u _ h

theorem maps_saverSection :
    (saverSection s).Maps (State.redriven ls tr as) (saverSection (s.redriven ls tr as)) := by
  refine maps_critical ls tr as s _ _ fun u => ?_
  have hcounter : ((u.redriven ls tr as).changes = (u.redriven ls tr as).lastSeen) = (u.changes = u.lastSeen) := rfl
  simp only [hcounter]
  split
  · exact maps_saverIdle ls tr as u
  · exact .ok () (saverActive u)

theorem maps_completeFrame :
    (completeFrame s).Maps (State.redriven ls tr as) (completeFrame (s.redriven ls tr as)) := by
  refine Res.Maps.bind (maps_critical ls tr as s _ _ fun u => ?_) fun _ v =>
    .ok () { v with noticePending := v.noticePending + 1, rxState := .awaitingSync }
  have hasm : (u.redriven ls tr as).asm = u.asm := rfl
  simp only [hasm]
  split
  · exact maps_raise ls tr as u _
  · exact (maps_nextReplace ls tr as u _ _).bind fun _ v =>
      (maps_poolAlloc ls tr as v _ _).bind fun h w => .ok () (adoptAsm h w)

theorem maps_dataByte (d : Byte) : (dataByte d s).Maps (State.redriven ls tr as) (dataByte d (s.redriven ls tr as)) := by
  obtain hr | ⟨c, hr⟩ := s.rxState.awaiting_or_filling
  · rw [dataByte_awaitingSync d hr, dataByte_awaitingSync (s := s.redriven ls tr as) d hr]
    exact .ok () s
  · cases ha : s.asm with
    | none =>
      have ha' : (s.redriven ls tr as).asm = none := ha
      have hr' : (s.redriven ls tr as).rxState = .filling c := hr
      simp only [dataByte, hr, ha, hr', ha']
      exact maps_raise ls tr as s _
    | some a =>
      rw [dataByte_filling d hr ha, dataByte_filling (s := s.redriven ls tr as) d hr ha]
      split
      · next hc =>
        exact .ok () { s with
          mem := Memory.write s.mem (slotAddr a c.val) [d], rxState := .filling ⟨c.val + 1, Nat.add_lt_add_right hc 1⟩ }
      · exact maps_completeFrame ls tr as { s with mem := Memory.write s.mem (slotAddr a c.val) [d] }

end Redriven

/-- An operation that does not look at the driver's cells, and ends, ends in the same way in other ones. -/
theorem Res.Maps.of_ok {α : Type} {w : State → State} {a : α} {t : State} {m : Res α} (h : (Res.ok a t).Maps w m) :
    m = .ok a (w t) := by
  cases h; rfl

/-! ## Receptions and line steps (R188, R263) -/

/-- SYNC and DATA, unless they halt the block, commute with a change of the driver's cells. -/
theorem exec_received_redriven {s t : State} {i : Instr} (hi : i = .sync ∨ ∃ d, i = .data d) (h : exec i s = .next t)
    (ht : t.phase ≠ .halted) (ls : Lines → Lines) (tr : List LineEvent → List LineEvent)
    (as : List Activation → List Activation) :
    exec i (s.redriven ls tr as) = .next (t.redriven ls tr as) := by
  obtain rfl | ⟨d, rfl⟩ := hi
  · obtain ⟨hs, heq⟩ := live_next_iff.mp h
    cases heq
    exact exec_sync (s := s.redriven ls tr as) hs
  · obtain ⟨hs, heq⟩ := live_next_iff.mp h
    split at heq
    · next hd =>
      obtain ⟨_, hok⟩ | hraised := (Res.outcome_next_iff _ _).mp heq
      · have hmaps := maps_dataByte ls tr as s d
        rw [hok] at hmaps
        rw [exec_data (s := s.redriven ls tr as) hs ((payloadOk_iff d).mp hd), hmaps.of_ok, Res.outcome_ok]
      · have hwithin := within_dataByte ((payloadOk_iff d).mp hd) s
        rw [hraised] at hwithin
        obtain ⟨u, c, _, rfl⟩ := hwithin
        exact absurd rfl ht
    · cases heq

/-- So they leave the driver's cells as they are. -/
theorem exec_received_frame {s t : State} {i : Instr} (hi : i = .sync ∨ ∃ d, i = .data d) (h : exec i s = .next t)
    (ht : t.phase ≠ .halted) : t.lines = s.lines ∧ t.trace = s.trace ∧ t.acts = s.acts := by
  have hsame := exec_received_redriven hi h ht (fun _ => s.lines) (fun _ => s.trace) fun _ => s.acts
  have heq : t.redriven (fun _ => s.lines) (fun _ => s.trace) (fun _ => s.acts) = t :=
    Host.Outcome.next.inj (hsame.symm.trans h)
  exact ⟨(congrArg State.lines heq).symm, (congrArg State.trace heq).symm, (congrArg State.acts heq).symm⟩

/-- The event of a line step, under the working colours `g` (R181). -/
def lineEventOf (g : RowPixels) : Micro → Option LineEvent
  | .bit i ch k => some (.set .sda ((g[i].channel ch).getLsbD k))
  | .event e => some e
  | _ => none

theorem runMicro_line {who : Agent} {m : Micro} {e : LineEvent} {s : State} (h : lineEventOf s.topG m = some e) :
    runMicro who m s = .ok () (s.emit [e]) := by
  cases m with
  | bit i ch k => cases h; rfl
  | event e' => cases h; rfl
  | _ => cases h

/-- A line step performs its event, and the activation goes on or ends. -/
theorem microStep_line {s : State} {a : Activation} {rest : List Activation} {m : Micro} {ms : List Micro} {e : LineEvent}
    (ha : s.acts = a :: rest) (ht : a.todo = m :: ms) (he : lineEventOf a.g m = some e) :
    microStep s = .ok () (s.redriven (fun ls => Lines.after ls e) (fun tr => tr ++ [e])
      fun _ => if ms = [] then rest else { a with todo := ms } :: rest) := by
  rw [microStep_cons ha ht, runMicro_line (s := { s with acts := { a with todo := ms } :: rest }) he, Res.bind_ok]
  split <;> rfl

/-- Settles O10: a line step touches the driver's cells alone, a reception all but these. -/
theorem receptionCommutesWithLineSteps : Obligations.ReceptionCommutesWithLineSteps := by
  intro s t a rest m ms i ha _ htodo hm hi h ht
  obtain ⟨e, he⟩ : ∃ e, lineEventOf a.g m = some e := by
    obtain ⟨e, rfl⟩ | ⟨p, ch, k, rfl⟩ := hm
    · exact ⟨e, rfl⟩
    · exact ⟨_, rfl⟩
  obtain ⟨_, _, hacts⟩ := exec_received_frame hi h ht
  exact ⟨_, _, microStep_line ha htodo he, microStep_line (hacts.trans ha) htodo he,
    exec_received_redriven hi h ht _ _ _⟩

end Sys2Proof.Machine
end

section
/-! PROOFS of the statements about runs from good states: frames received (spec/44_deframer.md), images adopted
(spec/45_display_scanout.md), the screensaver's cycle (spec/46_screensaver.md), and endless runs (spec/70_reset_and_hazards.md
section 2). -/

namespace Sys2Proof.Machine

/-! ## The offset of the screensaver (R238) -/

/-- On its range the update counts down modulo 151. -/
theorem nextOffset_eq {o : Int} (hlow : -120 ≤ o) (hhigh : o ≤ 30) : nextOffset o = (o + 120 - 1) % 151 - 120 := by
  unfold nextOffset Config.offsetMin Config.offsetInit
  split <;> omega

theorem iterate_nextOffset {o : Int} (hlow : -120 ≤ o) (hhigh : o ≤ 30) (k : Nat) :
    nextOffset^[k] o = (o + 120 - k) % 151 - 120 := by
  induction k with
  | zero => simp only [Function.iterate_zero, id]; omega
  | succ k ih =>
    rw [Function.iterate_succ_apply', ih, nextOffset_eq (by omega) (by omega)]
    omega

/-- Settles O56. -/
theorem offsetCyclesIn151Ticks : Obligations.OffsetCyclesIn151Ticks := by
  intro o hlow hhigh
  refine ⟨fun k => ?_, ?_, fun k hk hlt => ?_⟩
  all_goals rw [iterate_nextOffset hlow hhigh]; omega

/-! ## A screensaver tick over a pending image (R304) -/

/-- Settles O57: the slot the screensaver gets is the pending one, which it frees first. -/
theorem saverCanDiscardAnUnnoticedFrame : Obligations.SaverCanDiscardAnUnnoticedFrame := by
  intro s h hgood hp hs hf hd hv hn _ hc
  obtain ⟨hacts, hlocks, hheld⟩ := hgood.rest
  have hrun := hgood.run hp
  have hfree : s.free = [] := (freeCountFollowsPending s hrun.pool hheld hrun.asmSome hrun.curSome).2 (by rw [hn]; rfl)
  have hdisp : dispatch s = .start .saver := by simp [dispatch_rest hp hacts hlocks hf, hd, hv]
  have hstep : step s = exec .saverTick s :=
    (step_of_stim_nil hs hgood.live).trans (run_coarsePlan_start hdisp nofun)
  exact ⟨_, hstep.trans (exec_saverTick_idle hp hv hc (.inl ⟨hn, hfree⟩)), rfl,
    Memory.readBlock_write_image s.mem h (Config.saverFrame s.offset), rfl, rfl⟩

/-! ## Receiving a frame (R200 to R205) -/

/-- Between activations, with no stimulus, the block takes the byte at the head of `rx_fifo`. -/
theorem step_of_byte {s : State} (hp : s.phase = .run) (hr : AtRest s) (hs : s.stim = []) {b : Byte} {rest : List Byte}
    (hf : s.rxFifo = b :: rest) : step s = exec (decodeByte b) { s with rxFifo := rest } := by
  obtain ⟨hacts, hlocks, _⟩ := hr
  rw [step_of_stim_nil hs (by simp [hp]), run_coarsePlan_rx hp hacts hlocks hf]

theorem step_of_sync {s : State} (hp : s.phase = .run) (hr : AtRest s) (hs : s.stim = []) {rest : List Byte}
    (hf : s.rxFifo = 0xFF#8 :: rest) : step s = .next { s with rxFifo := rest, rxState := .filling 0 } := by
  rw [step_of_byte hp hr hs hf]
  exact exec_sync (s := { s with rxFifo := rest }) (by simp [hp])

theorem step_of_payload {s : State} (hp : s.phase = .run) (hr : AtRest s) (hs : s.stim = []) {b : Byte} {rest : List Byte}
    (hf : s.rxFifo = b :: rest) (hb : b ≠ 0xFF#8) : step s = exec (.data b) { s with rxFifo := rest } := by
  rw [step_of_byte hp hr hs hf, decodeByte_eq, if_neg hb]

/-- Payload bytes that do not complete the frame are stored one after the other from the cursor on, one a step, and nothing
else changes. -/
theorem run_fills {bs rest : List Byte} {s : State} {a : Slot} {c c' : Fin 192} (hp : s.phase = .run) (hr : AtRest s)
    (hs : s.stim = []) (ha : s.asm = some a) (hrx : s.rxState = .filling c) (hf : s.rxFifo = bs ++ rest)
    (hb : ∀ b ∈ bs, b ≠ 0xFF#8) (hc : c'.val = c.val + bs.length) :
    ∃ m, (∀ n, Sys2Proof.core.run (bs.length + n) s =
        Sys2Proof.core.run n { s with rxFifo := rest, rxState := .filling c', mem := m }) ∧
      (∀ i, i < bs.length → Memory.read m (slotAddr a (c.val + i)) = bs[i]?) ∧
      ∀ x, x < slotAddr a c.val → Memory.read m x = Memory.read s.mem x := by
  induction bs generalizing s c with
  | nil =>
    obtain rfl : c' = c := Fin.ext hc
    obtain rfl : s.rxFifo = rest := hf
    refine ⟨s.mem, fun n => ?_, nofun, fun _ _ => rfl⟩
    rw [List.length_nil, Nat.zero_add, ← hrx]
  | cons b bs ih =>
    rw [List.length_cons] at hc
    have hlt : c.val + 1 < 192 := by omega
    have hstep : step s = .next { s with
        rxFifo := bs ++ rest, mem := Memory.write s.mem (slotAddr a c.val) [b], rxState := .filling ⟨c.val + 1, hlt⟩ } :=
      (step_of_payload hp hr hs hf (hb b List.mem_cons_self)).trans
        (exec_data_filling (s := { s with rxFifo := bs ++ rest }) (by simp [hp]) (hb b List.mem_cons_self) hrx rfl ha)
    obtain ⟨m, hrun, hread, hkept⟩ := ih (c := ⟨c.val + 1, hlt⟩)
      (s := { s with
        rxFifo := bs ++ rest, mem := Memory.write s.mem (slotAddr a c.val) [b], rxState := .filling ⟨c.val + 1, hlt⟩ })
      hp hr hs ha rfl rfl (fun x hx => hb x (List.mem_cons_of_mem b hx)) (by simp only; omega)
    refine ⟨m, fun n => ?_, fun i hi => ?_, fun x hx => ?_⟩
    · rw [List.length_cons, Nat.add_right_comm, run_succ hstep, hrun]
    · cases i with
      | zero =>
        rw [Nat.add_zero, hkept _ (by simp [slotAddr])]
        exact Memory.read_write_byte_same s.mem _ b
      | succ i =>
        have hi' := hread i (by simpa using hi)
        rw [show c.val + 1 + i = c.val + (i + 1) by omega] at hi'
        rw [hi', List.getElem?_cons_succ]
    · rw [hkept x (by simp only [slotAddr] at hx ⊢; omega)]
      exact Memory.read_write_byte_ne s.mem b (Nat.ne_of_lt hx)

/-- Settles O49: the bytes are stored in the assembly buffer, and the second sentinel takes the cursor back. -/
theorem partialFrameSurfacesNothing : Obligations.PartialFrameSurfacesNothing := by
  intro s bs rest hgood hp hs hf hlen hb
  obtain ⟨a, ha⟩ := Option.isSome_iff_exists.mp (hgood.run hp).asmSome
  have hsync := step_of_sync hp hgood.rest hs hf
  obtain ⟨m, hrun, _⟩ := run_fills (s := { s with rxFifo := bs ++ 0xFF#8 :: rest, rxState := .filling 0 }) (c := 0)
    (c' := ⟨bs.length, hlen⟩) hp hgood.rest hs ha rfl rfl hb (Nat.zero_add _).symm
  have hsync' := step_of_sync
    (s := { s with rxFifo := 0xFF#8 :: rest, rxState := .filling ⟨bs.length, hlen⟩, mem := m }) hp hgood.rest hs rfl
  exact ⟨_, (run_succ hsync _).trans ((hrun 1).trans (run_succ hsync' 0)), rfl, rfl, rfl, rfl, rfl, rfl, rfl, rfl, rfl⟩

/-- The bytes of a slot, read one by one. -/
theorem slotBytes_eq {s : State} {h : Slot} {bs : List Byte} (hlen : bs.length = 192)
    (hread : ∀ i, i < 192 → Memory.read s.mem (slotAddr h i) = bs[i]?) : slotBytes s h = some bs := by
  rw [slotBytes, ← hlen]
  exact Memory.readBlock_eq bs fun i hi => hread i (hlen ▸ hi)

/-- Settles O48: 191 bytes are stored, the last one completes the frame. -/
theorem frameIsPublishedWhole : Obligations.FrameIsPublishedWhole := by
  intro s a bs rest hgood hp hs ha hf hlen hb
  obtain ⟨first, last, rfl⟩ := (List.eq_nil_or_concat' bs).resolve_left (by rintro rfl; cases hlen)
  have hfirst : first.length = 191 := by simpa using hlen
  have hlast : last ≠ 0xFF#8 := hb last (by simp)
  have hrunning := hgood.run hp
  obtain ⟨_, _, hheld⟩ := id hgood.rest
  obtain ⟨g, ho⟩ := exists_onlySlot hrunning.pool hheld hrunning.asmSome hrunning.curSome
  have hne : g ≠ a := ho.ne_asm hrunning.pool ha
  have hsync := step_of_sync hp hgood.rest hs hf
  obtain ⟨m, hrun, hread, _⟩ := run_fills
    (s := { s with rxFifo := (first ++ [last]) ++ rest, rxState := .filling 0 }) (bs := first) (c := 0) (c' := 191)
    (rest := last :: rest) hp hgood.rest hs ha rfl (by simp) (fun b hm => hb b (by simp [hm])) (by rw [hfirst]; rfl)
  have hdata := (step_of_payload (s := { s with rxFifo := last :: rest, rxState := .filling 191, mem := m }) hp hgood.rest hs
    rfl hlast).trans (exec_data_last (s := { s with rxFifo := rest, rxState := .filling 191, mem := m }) (by simp [hp])
    hlast rfl ha (by simp [hheld]) hne ho)
  have hruns : Sys2Proof.core.run (first.length + 1 + 1) s = _ :=
    (run_succ hsync _).trans ((hrun 1).trans (run_succ hdata 0))
  rw [hfirst] at hruns
  refine ⟨_, hruns, rfl, ?_, rfl, rfl, rfl, rfl, rfl, rfl, rfl⟩
  refine slotBytes_eq hlen fun i hi => ?_
  rw [Memory.read_write_image_of_not_inSlot _ _ (not_inSlot_slotAddr hne hi)]
  rcases Nat.lt_or_ge i 191 with h | h
  · have hi' := hread i (by omega)
    rw [show (0 : Fin 192).val + i = i from Nat.zero_add i] at hi'
    rw [Memory.read_write_byte_ne _ _ (by simp only [slotAddr]; omega), List.getElem?_append_left (by omega), hi']
  · obtain rfl : i = 191 := by omega
    rw [Memory.read_write_byte_same, List.getElem?_append_right (by omega), hfirst]
    rfl

end Sys2Proof.Machine
end

section
/-! PROOFS of the statements about liveness: the adoption of a pending image (spec/45_display_scanout.md) and fair endless runs
(spec/70_reset_and_hazards.md section 2). -/

namespace Sys2Proof.Machine

/-! ## A pending image is adopted at the wrap (R227) -/

/-- Nothing is ready: no byte waiting, no tick due, no completion pending. -/
structure Quiet (s : State) : Prop where
  rxFifo : s.rxFifo = []
  dispDue : s.dispDue = false
  saverDue : s.saverDue = false
  noticePending : s.noticePending = 0

theorem dispatch_of_quiet {s : State} (hp : s.phase = .run) (hr : AtRest s) (hq : Quiet s) : dispatch s = .idle := by
  obtain ⟨hacts, hlocks, _⟩ := hr
  simp [dispatch_rest hp hacts hlocks hq.rxFifo, hq.dispDue, hq.saverDue, hq.noticePending]

/-- A display tick of ENV that the block is run to quiescence after takes three steps: the tick, its activation, and the end of
the run. -/
theorem run_displayTick {s t : State} {r : List Stim} (hgood : GoodState s) (hp : s.phase = .run) (hq : Quiet s)
    (hs : s.stim = .env .dispDue :: .settle :: r)
    (hexec : exec .displayTick { s with stim := .settle :: r, dispDue := true } = .next t) (hpt : t.phase = .run)
    (hqt : Quiet t) (hst : t.stim = .settle :: r) :
    GoodState { t with stim := r } ∧ ∀ n, Sys2Proof.core.run (n + 3) s = Sys2Proof.core.run n { t with stim := r } := by
  obtain ⟨hacts, hlocks, _⟩ := id hgood.rest
  have hdue : step s = .next { s with stim := .settle :: r, dispDue := true } :=
    (step_of_stim_env hs).trans (run_envPlan_dispDue (s := { s with stim := .settle :: r }) hp (by simp [running, hacts]))
  have hgood₁ := stepKeepsGoodState _ _ hgood hdue
  have hdisp : dispatch { s with stim := .settle :: r, dispDue := true } = .start .disp :=
    dispatch_disp hp hq.rxFifo rfl hq.saverDue (by rw [eff_of_rest (by exact hacts) (by exact hlocks)]; decide)
  have hsent : step { s with stim := .settle :: r, dispDue := true } = .next t :=
    (step_of_stim_settle rfl (by simp [hdisp])).trans ((run_coarsePlan_start hdisp nofun).trans hexec)
  have hgood₂ := stepKeepsGoodState _ _ hgood₁ hsent
  have hsettled : step t = .next { t with stim := r } :=
    step_of_stim_settle_idle hst (dispatch_of_quiet hpt hgood₂.rest hqt)
  exact ⟨stepKeepsGoodState _ _ hgood₂ hsettled, fun n => by rw [run_succ hdue, run_succ hsent, run_succ hsettled]⟩

section SomeEvents
variable {s : State} {c : Slot} {bs : List Byte} (hp : s.phase = .run) (hd : s.dispDue = true) (hc : s.cur = some c)
  (hb : slotBytes s c = some bs)
include hp hd hc hb

/-! What a display tick does, whatever its events are. -/

theorem exists_exec_displayTick_row (hrow : s.row ≠ 7) :
    ∃ evs, exec .displayTick s = .next { rowSent evs s with row := s.row + 1 } :=
  ⟨_, exec_displayTick_row hp hd hc hb hrow⟩

theorem exists_exec_displayTick_swap (hrow : s.row = 7) (hf : c ∉ s.free) {h : Slot} (hn : s.next = some h) :
    ∃ evs, exec .displayTick s =
      .next { rowSent evs s with row := 0, cur := some h, next := none, free := insertFree c s.free } :=
  ⟨_, exec_displayTick_swap hp hd hc hb hrow hf hn⟩

end SomeEvents

/-- With an image pending, the ticks up to the wrap adopt it. -/
theorem exists_run_adopts {k : Nat} {s : State} {h : Slot} (hgood : GoodState s) (hp : s.phase = .run) (hq : Quiet s)
    (hn : s.next = some h) (hk : s.row.val + k = 7) (hs : s.stim = script (List.replicate (k + 1) [.dispDue])) :
    ∃ t, Sys2Proof.core.run (3 * (k + 1)) s = .next t ∧ t.cur = some h ∧ t.next = none ∧ t.row = 0 ∧ t.stim = [] := by
  have hrunning := hgood.run hp
  obtain ⟨c, hc⟩ := Option.isSome_iff_exists.mp hrunning.curSome
  obtain ⟨bs, hb⟩ := hrunning.full.slotBytes c
  induction k generalizing s bs with
  | zero =>
    have hfree : c ∉ s.free := fun hm => hrunning.pool.free_ne_cur hc hm rfl
    obtain ⟨evs, hexec⟩ := exists_exec_displayTick_swap (s := { s with stim := [.settle], dispDue := true }) hp rfl hc hb
      (Fin.ext hk) hfree hn
    obtain ⟨_, hrun⟩ := run_displayTick hgood hp hq hs hexec hp ⟨hq.rxFifo, rfl, hq.saverDue, hq.noticePending⟩ rfl
    exact ⟨_, hrun 0, rfl, rfl, rfl, rfl⟩
  | succ k ih =>
    have hlast : s.row ≠ 7 := fun he => by rw [he] at hk; omega
    obtain ⟨evs, hexec⟩ := exists_exec_displayTick_row
      (s := { s with stim := .settle :: script (List.replicate (k + 1) [.dispDue]), dispDue := true }) hp rfl hc hb hlast
    obtain ⟨hgood', hrun⟩ :=
      run_displayTick hgood hp hq hs hexec hp ⟨hq.rxFifo, rfl, hq.saverDue, hq.noticePending⟩ rfl
    obtain ⟨t, ht, hadopted⟩ := ih hgood' hp ⟨hq.rxFifo, rfl, hq.saverDue, hq.noticePending⟩ hn
      (show (s.row + 1).val + k = 7 by omega) rfl (hgood'.run hp) hc bs hb
    exact ⟨t, (hrun _).trans ht, hadopted⟩

/-- Settles O54. -/
theorem pendingImageIsAdoptedWithinAFrame : Obligations.PendingImageIsAdoptedWithinAFrame := by
  intro s h hgood hp hn hf hd hv hnotice hs
  have hk : 8 - s.row.val = 7 - s.row.val + 1 := by omega
  rw [hk] at hs ⊢
  exact exists_run_adopts hgood hp ⟨hf, hd, hv, hnotice⟩ hn (by omega) hs

/-! ## Endless runs (R264, R312) -/

theorem GoodState.withStim {s : State} (h : GoodState s) {r : List Stim} (hr : Stim.tick ∉ r) :
    GoodState { s with stim := r } where
  atomic := hr
  rest := h.rest
  mem := h.mem
  fatalNone := h.fatalNone
  phase := h.phase
  off := h.off
  run hp :=
    have hrun := h.run hp
    ⟨hrun.pool, hrun.asmSome, hrun.curSome, hrun.offsetLow, hrun.offsetHigh, hrun.rows, hrun.control, hrun.full⟩

theorem tick_not_mem_env (m : Option EnvMove) : Stim.tick ∉ (m.map Stim.env).toList := by
  cases m <;> simp

/-- In RUN a move of ENV other than RESET takes no byte out of `rx_fifo`. -/
theorem received_of_instant {s t : State} {m : EnvMove} (hp : s.phase = .run) (hr : AtRest s) (hm : m ≠ .reset)
    (h : instant (some m) s = .next t) :
    t.phase = .run ∧ ∃ more, t.rxFifo = s.rxFifo ++ more := by
  have hplan : (envPlan m { s with stim := [] }).run = .next t :=
    (step_of_stim_env (s := { s with stim := [.env m] }) rfl).symm.trans h
  cases m with
  | reset => exact absurd rfl hm
  | deliver b =>
    rw [run_envPlan_deliver (s := { s with stim := [] }) hp] at hplan
    cases hplan
    exact ⟨hp, [b], rfl⟩
  | dispDue =>
    rw [run_envPlan_dispDue (s := { s with stim := [] }) hp (by simp [running, hr.1])] at hplan
    cases hplan
    exact ⟨hp, [], (List.append_nil _).symm⟩
  | saverDue =>
    rw [run_envPlan_saverDue (s := { s with stim := [] }) hp (by simp [running, hr.1])] at hplan
    cases hplan
    exact ⟨hp, [], (List.append_nil _).symm⟩

/-- The block move of an instant. -/
theorem blockMove_of_instant {s t : State} (hgood : GoodState s) (hp : s.phase = .run) (h : instant none s = .next t) :
    ∃ d, BlockMove { s with stim := [], draws := d } t := by
  cases (hgood.withStim List.not_mem_nil).goodStep h with
  | reset hs => cases hs
  | env hs => cases hs
  | boot ho => exact nomatch hp.symm.trans ho
  | block _ hmove => exact ⟨_, hmove⟩

/-- A block move with a byte waiting consumes it. -/
theorem BlockMove.consumes {s t : State} (h : BlockMove s t) {b : Byte} {rest : List Byte} (hf : s.rxFifo = b :: rest) :
    t.rxFifo = rest := by
  cases h with
  | sync hf' | drop hf' | store hf' | complete hf' => exact (List.cons.inj (hf'.symm.trans hf)).2
  | idle hf' | display hf' | wrap hf' | swap hf' | saverIdle hf' | saverActive hf' | notice hf' =>
    exact nomatch hf'.symm.trans hf

section Endless
variable {env : Nat → Option EnvMove} {run : Nat → State} (hrun : EndlessRun env run) (hgood : GoodState (run 0))
  (hp : (run 0).phase = .run) (hreset : ∀ n, env n ≠ some .reset)
include hrun hgood hp hreset

/-- Without RESET an endless run stays good and in RUN. -/
theorem EndlessRun.good (n : Nat) : GoodState (run n) ∧ (run n).phase = .run := by
  induction n with
  | zero => exact ⟨hgood, hp⟩
  | succ n ih =>
    obtain ⟨hgood', hp'⟩ := ih
    have hnext := hrun n
    refine ⟨stepKeepsGoodState _ _ (hgood'.withStim (tick_not_mem_env (env n))) hnext, ?_⟩
    cases hm : env n with
    | none =>
      rw [hm] at hnext
      obtain ⟨d, hmove⟩ := blockMove_of_instant hgood' hp' hnext
      obtain ⟨_, hphase, _⟩ := hmove.frame
      exact hphase.trans hp'
    | some m =>
      rw [hm] at hnext
      exact (received_of_instant hp' hgood'.rest (fun he => hreset n (hm.trans (congrArg some he))) hnext).1

/-- As long as ENV moves, a byte at the head of `rx_fifo` stays there. -/
theorem EndlessRun.head_stays {n : Nat} {b : Byte} {rest : List Byte} (hf : (run n).rxFifo = b :: rest) (j : Nat)
    (henv : ∀ i, i < j → env (n + i) ≠ none) : ∃ more, (run (n + j)).rxFifo = b :: (rest ++ more) := by
  induction j with
  | zero => exact ⟨[], by rw [List.append_nil]; exact hf⟩
  | succ j ih =>
    obtain ⟨more, hmore⟩ := ih fun i hi => henv i (by omega)
    obtain ⟨m, hm⟩ := Option.ne_none_iff_exists'.mp (henv j (Nat.lt_succ_self j))
    have hnext := hrun (n + j)
    rw [hm] at hnext
    obtain ⟨hgood', hp'⟩ := hrun.good hgood hp hreset (n + j)
    obtain ⟨_, new, hnew⟩ := received_of_instant hp' hgood'.rest
      (fun he => hreset (n + j) (hm.trans (congrArg some he))) hnext
    exact ⟨more ++ new, by rw [← Nat.add_assoc, hnew, hmore]; simp⟩

/-- Fairness gives the block a move while the byte waits, since RX can start then. -/
theorem EndlessRun.exists_block_move (hfair : Fair env run) {n : Nat} {b : Byte} {rest : List Byte}
    (hf : (run n).rxFifo = b :: rest) : ∃ j, env (n + j) = none := by
  by_contra hnone
  push Not at hnone
  obtain ⟨k, hk, henv⟩ := hfair.block n fun k hk => by
    obtain ⟨j, rfl⟩ := Nat.exists_eq_add_of_le hk
    obtain ⟨more, hmore⟩ := hrun.head_stays hgood hp hreset hf j fun i _ => hnone i
    obtain ⟨hgood', hp'⟩ := hrun.good hgood hp hreset (n + j)
    have heff := eff_of_rest hgood'.rest.1 hgood'.rest.2.1
    rw [BlockMoveEnabled, dispatch_rx hp' (by simp [hmore]) (by omega)]
    nofun
  obtain ⟨j, rfl⟩ := Nat.exists_eq_add_of_le hk
  exact hnone j henv

end Endless

/-! A fair endless run in which ENV delivers a byte at every second instant, that the block then consumes. -/

/-- A state with both ticks due, a completion pending and the given bytes waiting. -/
def starved (s : State) (f : List Byte) : State :=
  { s with rxFifo := f, dispDue := true, saverDue := true, noticePending := 1, stim := [] }

def starvingEnv (n : Nat) : Option EnvMove := if n % 2 = 0 then some (.deliver 0) else none

def starvingRun (s : State) (n : Nat) : State := starved s (if n % 2 = 0 then [] else [0])

theorem good_starved {s : State} (h : GoodState s) (f : List Byte) : GoodState (starved s f) where
  atomic := List.not_mem_nil
  rest := h.rest
  mem := h.mem
  fatalNone := h.fatalNone
  phase := h.phase
  off := h.off
  run hp :=
    have hrun := h.run hp
    ⟨hrun.pool, hrun.asmSome, hrun.curSome, hrun.offsetLow, hrun.offsetHigh, hrun.rows, hrun.control, hrun.full⟩

/-- Awaiting a sentinel, the block drops each byte as it comes. -/
theorem endlessRun_starving {s : State} (hgood : GoodState s) (hp : s.phase = .run) (hr : s.rxState = .awaitingSync) :
    EndlessRun starvingEnv (starvingRun s) := by
  intro n
  rcases Nat.mod_two_eq_zero_or_one n with h | h
  · have h' : (n + 1) % 2 ≠ 0 := by omega
    rw [starvingEnv, starvingRun, starvingRun, if_pos h, if_pos h, if_neg h']
    exact (step_of_stim_env rfl).trans (run_envPlan_deliver (s := starved s []) hp 0)
  · have h₀ : n % 2 ≠ 0 := by omega
    have h' : (n + 1) % 2 = 0 := by omega
    rw [starvingEnv, starvingRun, starvingRun, if_neg h₀, if_neg h₀, if_pos h']
    have hdrop : exec (.data 0) (starved s []) = .next (starved s []) := by
      rw [exec_data (by simp [starved, hp]) (by decide), dataByte_awaitingSync (s := starved s []) 0 hr, Res.outcome_ok]
    exact (step_of_payload (s := starved s [0]) hp (good_starved hgood [0]).rest rfl rfl (by decide)).trans hdrop

theorem good_booted_reset : GoodState (booted State.reset) :=
  stepKeepsGoodState State.reset _ good_reset <|
    (step_of_stim_nil rfl (by decide)).trans ((run_coarsePlan_start (dispatch_off rfl) nofun).trans (exec_boot rfl))

/-- Settles O60: the byte is consumed when the block moves next, which fairness grants; a byte at every second
instant keeps the other actors waiting for ever. -/
theorem fairRunsConsumeBytesAndMayStarveTheRest : Obligations.FairRunsConsumeBytesAndMayStarveTheRest := by
  refine ⟨fun env run hrun hfair hgood hp hreset n b rest hf => ?_,
    starvingEnv, starvingRun (booted State.reset), endlessRun_starving good_booted_reset rfl rfl,
    ⟨fun n _ => ?_, fun n => ⟨n, le_rfl, rfl⟩, fun n => ⟨n, le_rfl, rfl⟩⟩, good_starved good_booted_reset _, rfl, fun n => ?_,
    fun n => ⟨rfl, rfl, rfl, rfl, rfl⟩⟩
  · have hmove := hrun.exists_block_move hgood hp hreset hfair hf
    obtain ⟨more, hmore⟩ := hrun.head_stays hgood hp hreset hf (Nat.find hmove) fun i hi => Nat.find_min hmove hi
    have henv := Nat.find_spec hmove
    have hnext := hrun (n + Nat.find hmove)
    rw [henv] at hnext
    obtain ⟨hgood', hp'⟩ := hrun.good hgood hp hreset (n + Nat.find hmove)
    obtain ⟨d, hblock⟩ := blockMove_of_instant hgood' hp' hnext
    exact ⟨_, more, Nat.le_add_right .., henv, hmore, hblock.consumes hmore⟩
  · exact ⟨2 * n + 1, by omega, if_neg (by omega)⟩
  · unfold starvingEnv
    split <;> nofun

end Sys2Proof.Machine
end

section
/-! PROOFS of the equality of activations by primitive steps and atomic ones (spec/60_exceptions.md section 3,
spec/70_reset_and_hazards.md section 1). -/

namespace Sys2Proof.Machine

/-! ## Runs -/

/-- A run of one step is the step. -/
theorem coreRun_one {M : Host.Core} (s : M.State) : M.run 1 s = M.step s := by
  rw [Host.Core.run]
  cases M.step s <;> rfl

theorem run_one (s : State) : Sys2Proof.core.run 1 s = step s := coreRun_one (M := Sys2Proof.core) s

/-- A run stops at a fault. -/
theorem coreRun_fault {M : Host.Core} {s : M.State} {f : M.Fault} (h : M.step s = .fault f) (n : Nat) :
    M.run (n + 1) s = .fault f := by
  rw [Host.Core.run, h]

theorem run_fault {s : State} {f : Fault} (h : step s = .fault f) (n : Nat) : Sys2Proof.core.run (n + 1) s = .fault f :=
  coreRun_fault (M := Sys2Proof.core) h n

/-- A halted block lets its ticks pass (R253). -/
theorem run_of_halted {n : Nat} {s : State} {r : List Stim} (hp : s.phase = .halted)
    (hs : s.stim = List.replicate n .tick ++ r) : Sys2Proof.core.run n s = .next { s with stim := r } := by
  induction n generalizing s with
  | zero =>
    obtain rfl : s.stim = r := hs
    rfl
  | succ n ih =>
    have hidle : dispatch { s with stim := List.replicate n .tick ++ r } = .idle := dispatch_halted hp
    have hstep : step s = .next { s with stim := List.replicate n .tick ++ r } := by
      rw [step_of_stim_tick (r := List.replicate n .tick ++ r) hs, finePlan, hidle]
      rfl
    exact (run_succ hstep n).trans (ih (s := { s with stim := List.replicate n .tick ++ r }) hp rfl)

/-! ## An activation that nothing can preempt -/

/-- No other actor can start: the phase is INIT, or nothing is ready but a completion, which no activation waits for. -/
def Alone (s : State) : Prop :=
  s.phase = .init ∨ (s.phase = .run ∧ s.rxFifo = [] ∧ s.dispDue = false ∧ s.saverDue = false)

/-- The state in the middle of an activation, with nothing else in progress. -/
def State.inside (a : Activation) (st : List Stim) (s : State) : State := { s with acts := [a], stim := st }

theorem one_le_eff_inside (a : Activation) (st : List Stim) (s : State) : 1 ≤ (s.inside a st).eff := by
  have hpri : 1 ≤ priority a.agent := by cases a.agent <;> decide
  exact hpri.trans (le_max_left _ _)

theorem dispatch_inside {s : State} (h : Alone s) (a : Activation) (st : List Stim) : dispatch (s.inside a st) = .resume := by
  have heff := one_le_eff_inside a st s
  rcases h with hp | ⟨hp, hf, hd, hv⟩
  · rw [dispatch_init (s := s.inside a st) hp]
    exact resumeOrIdle_cons rfl
  · have hd' : (s.inside a st).dispDue = false := hd
    have hv' : (s.inside a st).saverDue = false := hv
    rw [dispatch_run (s := s.inside a st) hp hf, hd', hv', resumeOrIdle_cons rfl]
    simp only [Bool.false_eq_true, false_and, if_false]
    exact if_neg fun hn => Nat.not_lt_of_le heff hn.2

/-- On a tick the activation makes its next primitive step. -/
theorem step_inside {s : State} (h : Alone s) (a : Activation) (r : List Stim) :
    step (s.inside a (.tick :: r)) = (microStep (s.inside a r)).outcome := by
  have hresume : dispatch { s.inside a (.tick :: r) with stim := r } = .resume := dispatch_inside h a r
  rw [step_of_stim_tick rfl, finePlan, hresume]
  rfl

/-- On a tick at which an agent starts, it makes the first primitive step of its activation. -/
theorem step_starts {s : State} {a : Agent} {r : List Stim} (hs : s.stim = .tick :: r)
    (hd : dispatch { s with stim := r } = .start a) : step s = (fineStart a { s with stim := r }).run := by
  rw [step_of_stim_tick hs, finePlan, hd]

section Inside
variable {s : State} (h : Alone s) {ag : Agent} {g : RowPixels} {m : Micro}
include h

/-- A primitive step that is not the last one. -/
theorem step_inside_cons {t : State} {g' : RowPixels} {ms : List Micro} {r : List Stim} (hms : ms ≠ [])
    (hm : runMicro ag m (s.inside ⟨ag, g, ms⟩ r) = .ok () (t.inside ⟨ag, g', ms⟩ r)) :
    step (s.inside ⟨ag, g, m :: ms⟩ (.tick :: r)) = .next (t.inside ⟨ag, g', ms⟩ r) := by
  have hcons := microStep_cons (s := s.inside ⟨ag, g, m :: ms⟩ r) rfl rfl
  rw [step_inside h, hcons]
  change ((runMicro ag m (s.inside ⟨ag, g, ms⟩ r)).bind _).outcome = _
  rw [hm, Res.bind_ok, if_neg hms, Res.outcome_ok]

/-- A primitive step that raises or fails. -/
theorem step_inside_stops {ms : List Micro} {r : List Stim} {o : Res Unit}
    (hm : runMicro ag m (s.inside ⟨ag, g, ms⟩ r) = o) (ho : ∀ t, o ≠ .ok () t) :
    step (s.inside ⟨ag, g, m :: ms⟩ (.tick :: r)) = o.outcome := by
  have hcons := microStep_cons (s := s.inside ⟨ag, g, m :: ms⟩ r) rfl rfl
  rw [step_inside h, hcons]
  change ((runMicro ag m (s.inside ⟨ag, g, ms⟩ r)).bind _).outcome = _
  rw [hm]
  cases o with
  | ok a t => exact absurd rfl (ho t)
  | raised | fault | refused => rfl

/-- The last primitive step, one that does not look at the activation, ends it. -/
theorem step_inside_last {r : List Stim} (ha : s.acts = [])
    (hm : (runMicro ag m { s with stim := r }).Maps (State.redriven id id (⟨ag, g, []⟩ :: ·))
      (runMicro ag m (State.redriven id id (⟨ag, g, []⟩ :: ·) { s with stim := r }))) :
    step (s.inside ⟨ag, g, [m]⟩ (.tick :: r)) = (runMicro ag m { s with stim := r }).outcome := by
  have hcons := microStep_cons (s := s.inside ⟨ag, g, [m]⟩ r) rfl rfl
  have hinside : State.redriven id id (⟨ag, g, []⟩ :: ·) { s with stim := r } = s.inside ⟨ag, g, []⟩ r := by
    simp only [State.redriven, ha]
    rfl
  rw [hinside] at hm
  rw [step_inside h, hcons]
  change ((runMicro ag m (s.inside ⟨ag, g, []⟩ r)).bind fun _ s' => .ok () s'.pop).outcome = _
  generalize runMicro ag m (s.inside ⟨ag, g, []⟩ r) = fine at hm ⊢
  generalize runMicro ag m { s with stim := r } = coarse at hm ⊢
  cases hm <;> rfl

end Inside

theorem Alone.emit {s : State} (h : Alone s) (evs : List LineEvent) : Alone (s.emit evs) := h

/-- The line steps of an activation perform their events, one a tick. -/
theorem run_inside_lineSteps {ms : List Micro} {evs : List LineEvent} {g : RowPixels}
    (hms : ms.map (lineEventOf g) = evs.map some) {s : State} (h : Alone s) {ag : Agent} {tail : List Micro} {r : List Stim}
    (ht : tail ≠ []) (n : Nat) :
    Sys2Proof.core.run (ms.length + n) (s.inside ⟨ag, g, ms ++ tail⟩ (List.replicate ms.length .tick ++ r)) =
      Sys2Proof.core.run n ((s.emit evs).inside ⟨ag, g, tail⟩ r) := by
  induction ms generalizing s evs with
  | nil =>
    obtain rfl : evs = [] := List.map_eq_nil_iff.mp hms.symm
    rw [List.length_nil, Nat.zero_add, State.emit, List.append_nil]
    rfl
  | cons m ms ih =>
    obtain ⟨e, evs, rfl⟩ : ∃ e evs', evs = e :: evs' :=
      List.exists_cons_of_ne_nil fun hnil => by simp [hnil] at hms
    obtain ⟨he, hms⟩ := List.cons.inj hms
    have hstep := step_inside_cons h (ms := ms ++ tail) (t := s.emit [e]) (r := List.replicate ms.length .tick ++ r)
      (by simp [ht]) (runMicro_line (who := ag) (s := s.inside ⟨ag, g, ms ++ tail⟩ _) he)
    rw [List.length_cons, Nat.add_right_comm, List.replicate_succ, List.cons_append, List.cons_append, run_succ hstep,
      ih hms (h.emit [e]), emit_append]
    rfl

/-! ## SAVER and NOTICE -/

/-- Two primitive steps make a SAVER activation (R236, R237). -/
theorem run_saver {s : State} {r : List Stim} (hp : s.phase = .run) (ha : s.acts = []) (hl : s.locks = [])
    (hf : s.rxFifo = []) (hd : s.dispDue = false) (hv : s.saverDue = true) (hs : s.stim = .tick :: .tick :: r) :
    Sys2Proof.core.run 2 s = exec .saverTick { s with stim := r } := by
  have hdisp : dispatch { s with stim := .tick :: r } = .start .saver :=
    dispatch_saver hp hf hd hv (by rw [eff_of_rest (by exact ha) (by exact hl)]; decide)
  have hstart : step s = .next (State.inside ⟨.saver, Vector.replicate 8 Color.black, [.saverSection]⟩ (.tick :: r)
      { s with saverDue := false }) := by
    rw [step_starts hs hdisp]
    simp only [fineStart, Plan.run, State.push, State.inside, ha]
  have hlast := step_inside_last (s := { s with saverDue := false }) (.inr ⟨hp, hf, hd, rfl⟩) (m := .saverSection) (r := r) ha
    (maps_saverSection id id (⟨.saver, Vector.replicate 8 Color.black, []⟩ :: ·) { s with saverDue := false, stim := r })
  rw [run_succ hstart, run_one, hlast, exec_saverTick (s := { s with stim := r }) hp hv]
  rfl

/-- After its first step a NOTICE activation enters the section, increments the counter and leaves the section. -/
theorem run_inside_notice {s : State} (h : Alone s) (ha : s.acts = []) (g : RowPixels) (r : List Stim) :
    Sys2Proof.core.run 3 (s.inside ⟨.notice, g, noticeMicros⟩ (.tick :: .tick :: .tick :: r)) =
      .next (bumpCounter { s with stim := r }) := by
  have henter := step_inside_cons h (ag := .notice) (g := g) (m := .lockEnter [.changes]) (ms := [.bumpChanges, .lockLeave])
    (r := .tick :: .tick :: r) (t := State.enterLock .notice [.changes] s) nofun rfl
  have hbump := step_inside_cons (s := State.enterLock .notice [.changes] s) h (ag := .notice) (g := g) (m := .bumpChanges)
    (ms := [.lockLeave]) (r := .tick :: r) (t := bumpCounter (State.enterLock .notice [.changes] s)) nofun rfl
  have hleave := step_inside_last (s := bumpCounter (State.enterLock .notice [.changes] s)) h (ag := .notice) (g := g)
    (m := .lockLeave) (r := r) ha (.ok () _)
  rw [noticeMicros, run_succ henter, run_succ hbump, run_one, hleave]
  rfl

theorem dispatch_notice {s : State} (hp : s.phase = .run) (ha : s.acts = []) (hl : s.locks = []) (hf : s.rxFifo = [])
    (hd : s.dispDue = false) (hv : s.saverDue = false) (hn : 0 < s.noticePending) : dispatch s = .start .notice := by
  simp [dispatch_rest hp ha hl hf, hd, hv, hn]

/-- Four primitive steps make a NOTICE activation (R206). -/
theorem run_notice {s : State} {r : List Stim} (hp : s.phase = .run) (ha : s.acts = []) (hl : s.locks = [])
    (hf : s.rxFifo = []) (hd : s.dispDue = false) (hv : s.saverDue = false) (hn : 0 < s.noticePending)
    (hs : s.stim = .tick :: .tick :: .tick :: .tick :: r) :
    Sys2Proof.core.run 4 s = exec .noticeChange { s with stim := r } := by
  have hdisp : dispatch { s with stim := .tick :: .tick :: .tick :: r } = .start .notice :=
    dispatch_notice hp ha hl hf hd hv hn
  have hstart : step s = .next (State.inside ⟨.notice, Vector.replicate 8 Color.black, noticeMicros⟩
      (.tick :: .tick :: .tick :: r) { s with noticePending := s.noticePending - 1 }) := by
    rw [step_starts hs hdisp]
    simp only [fineStart, Plan.run, State.push, State.inside, ha]
  rw [run_succ hstart, run_inside_notice (s := { s with noticePending := s.noticePending - 1 }) (.inr ⟨hp, hf, hd, hv⟩) ha,
    exec_noticeChange (s := { s with stim := r }) hp hn]
  rfl

/-! ## BOOT -/

theorem replicate_append_one (n : Nat) (r : List Stim) :
    List.replicate n Stim.tick ++ .tick :: r = List.replicate (n + 1) .tick ++ r := by
  rw [List.replicate_succ', List.append_assoc, List.singleton_append]

theorem replicate_append_two (n : Nat) (r : List Stim) :
    List.replicate n Stim.tick ++ .tick :: .tick :: r = List.replicate (n + 2) .tick ++ r := by
  rw [replicate_append_one, replicate_append_one]

/-- The line steps of BOOT perform the events of DRV_INIT. -/
theorem map_event_lineEventOf (g : RowPixels) (evs : List LineEvent) :
    (evs.map Micro.event).map (lineEventOf g) = evs.map some := by
  rw [List.map_map]
  rfl

/-- After its first step BOOT gives the cells their values, performs the events of DRV_INIT and enters RUN. -/
theorem run_inside_boot {s : State} (hp : s.phase = .init) (ha : s.acts = []) (g : RowPixels) (r : List Stim)
    {evs : List LineEvent} :
    Sys2Proof.core.run (evs.length + 1 + 1)
        (s.inside ⟨.boot, g, .bootCells :: (evs.map Micro.event ++ [.bootDone])⟩
          (.tick :: (List.replicate evs.length .tick ++ .tick :: r))) =
      .next { State.emit evs (bootCells { s with stim := r }) with phase := .run } := by
  have halone : Alone s := .inl hp
  have hcells := step_inside_cons halone (ag := .boot) (g := g) (m := .bootCells) (ms := evs.map Micro.event ++ [.bootDone])
    (r := List.replicate evs.length .tick ++ .tick :: r) (t := bootCells s) (by simp) rfl
  have hlines := run_inside_lineSteps (map_event_lineEventOf g evs) (s := bootCells s) (.inl hp) (ag := .boot)
    (tail := [.bootDone]) (r := .tick :: r) nofun 1
  rw [List.length_map] at hlines
  have hdone := step_inside_last (s := (bootCells s).emit evs) (.inl hp) (ag := .boot) (g := g) (m := .bootDone) (r := r)
    ha (.ok () _)
  rw [run_succ hcells, hlines, run_one, hdone]
  rfl

/-- 299 primitive steps make BOOT (R291). -/
theorem run_boot {s : State} {r : List Stim} (hp : s.phase = .off) (ha : s.acts = [])
    (hs : s.stim = List.replicate 299 .tick ++ r) : Sys2Proof.core.run 299 s = exec .boot { s with stim := r } := by
  have hstart : step s = .next (State.inside ⟨.boot, Vector.replicate 8 Color.black, bootMicros⟩
      (List.replicate 298 .tick ++ r) { s with phase := .init }) := by
    rw [step_starts (r := List.replicate 298 .tick ++ r) hs (dispatch_off hp)]
    simp only [fineStart, Plan.run, State.push, State.inside, ha]
  have hticks : List.replicate 298 Stim.tick ++ r = .tick :: (List.replicate drvInitEvents.length .tick ++ .tick :: r) := by
    rw [length_drvInitEvents, replicate_append_one]
    rfl
  have hrest := run_inside_boot (s := { s with phase := .init }) rfl ha (Vector.replicate 8 Color.black) r
    (evs := drvInitEvents)
  rw [← hticks, length_drvInitEvents] at hrest
  rw [run_succ hstart, bootMicros, hrest, exec_boot (s := { s with stim := r }) hp, booted]
  rfl

/-! ## DISP -/

/-- The line steps of a row perform its events, once the working colours are the row's (R182, R188). -/
theorem rowSeq_lineEventOf (row : Fin 8) (g : RowPixels) :
    (rowSeq row Micro.bit Micro.event).map (lineEventOf g) = (rowEvents row g).map some := by
  rw [rowEvents, rowSeq_map, rowSeq_map]
  rfl

@[simp] theorem length_rowSeq_micros (row : Fin 8) : (rowSeq row Micro.bit Micro.event).length = 580 := by
  have hmap := congrArg List.length (rowSeq_lineEventOf row (Vector.replicate 8 Color.black))
  rwa [List.length_map, List.length_map, length_rowEvents] at hmap

/-- The three ways a read of the current row ends. -/
theorem currentRow_cases (s : State) :
    s.cur = none ∨ (∃ c, s.cur = some c ∧ Memory.readBlock s.mem (slotAddr c (24 * s.row.val)) 24 = none) ∨
      ∃ c bs, s.cur = some c ∧ Memory.readBlock s.mem (slotAddr c (24 * s.row.val)) 24 = some bs := by
  cases hc : s.cur with
  | none => exact .inl rfl
  | some c =>
    cases hb : Memory.readBlock s.mem (slotAddr c (24 * s.row.val)) 24 with
    | none => exact .inr (.inl ⟨c, rfl, hb⟩)
    | some bs => exact .inr (.inr ⟨c, bs, rfl, hb⟩)

theorem currentRow_some {s : State} {c : Slot} (hc : s.cur = some c) :
    currentRow s = (memRead .disp c (24 * s.row.val) 24 s).bind fun bs s' => .ok (rowOfBytes bs) s' := by
  simp only [currentRow, hc]
  rw [rowRead_natCast _ s.row.isLt]
  rfl

theorem currentRow_read {s : State} {c : Slot} {bs : List Byte} (hc : s.cur = some c)
    (hb : Memory.readBlock s.mem (slotAddr c (24 * s.row.val)) 24 = some bs) : currentRow s = .ok (rowOfBytes bs) s := by
  rw [currentRow_some hc, memRead, if_neg (by omega), if_pos (owns_disp_of_cur hc), hb]
  rfl

theorem currentRow_unwritten {s : State} {c : Slot} (hc : s.cur = some c)
    (hb : Memory.readBlock s.mem (slotAddr c (24 * s.row.val)) 24 = none) : currentRow s = .fault (.unwrittenByte c) := by
  rw [currentRow_some hc, memRead, if_neg (by omega), if_pos (owns_disp_of_cur hc), hb]
  rfl

/-! SEND_ROW step 1 as a primitive step, by the outcome of the read. -/

section LoadRow
variable {s : State} {c : Slot}

theorem runMicro_loadRow (who : Agent) (s : State) :
    runMicro who .loadRow s = (currentRow s).bind fun px u => .ok () (u.setG (px.map gammaColor)) :=
  rfl

theorem step_loadRow_none (h : Alone s) (hc : s.cur = none) (ag : Agent) (g : RowPixels) (ms : List Micro) (r : List Stim) :
    step (s.inside ⟨ag, g, .loadRow :: ms⟩ (.tick :: r)) =
      .next (State.raiseViolation .badHandle (s.inside ⟨ag, g, ms⟩ r)) :=
  step_inside_stops h (o := .raised _)
    (by rw [runMicro_loadRow, currentRow_none (s := s.inside ⟨ag, g, ms⟩ r) hc, Res.bind_raised]) (by simp)

theorem step_loadRow_unwritten (h : Alone s) (hc : s.cur = some c)
    (hb : Memory.readBlock s.mem (slotAddr c (24 * s.row.val)) 24 = none) (ag : Agent) (g : RowPixels) (ms : List Micro)
    (r : List Stim) : step (s.inside ⟨ag, g, .loadRow :: ms⟩ (.tick :: r)) = .fault (.unwrittenByte c) :=
  step_inside_stops h (o := .fault _)
    (by rw [runMicro_loadRow, currentRow_unwritten (s := s.inside ⟨ag, g, ms⟩ r) hc hb, Res.bind_fault]) (by simp)

theorem step_loadRow_read {bs : List Byte} (h : Alone s) (hc : s.cur = some c)
    (hb : Memory.readBlock s.mem (slotAddr c (24 * s.row.val)) 24 = some bs) (ag : Agent) (g : RowPixels) {ms : List Micro}
    (hms : ms ≠ []) (r : List Stim) :
    step (s.inside ⟨ag, g, .loadRow :: ms⟩ (.tick :: r)) =
      .next (s.inside ⟨ag, (rowOfBytes bs).map gammaColor, ms⟩ r) :=
  step_inside_cons h hms
    (by rw [runMicro_loadRow, currentRow_read (s := s.inside ⟨ag, g, ms⟩ r) hc hb, Res.bind_ok]; rfl)

end LoadRow

theorem displayBody_of_not_due {s : State} (hd : s.dispDue = false) :
    displayBody s =
      (currentRow s).bind fun px u => (sendRow u.row.val px u).bind fun _ v => swapAtWrap (advanceRow v) := by
  rw [displayBody, ← hd]

section InsideDisplay
variable {s : State} (h : Alone s) (g : RowPixels) (r : List Stim)
include h

/-- With the working colours in place, a DISP activation makes its line steps, the advance and the swap. -/
theorem run_inside_sendRow (ha : s.acts = []) {evs : List LineEvent} (he : evs = rowEvents s.row g) :
    Sys2Proof.core.run 582 (s.inside ⟨.disp, g, rowSeq s.row Micro.bit Micro.event ++ [.advanceRow, .swapAtWrap]⟩
        (List.replicate 580 .tick ++ .tick :: .tick :: r)) =
      (swapAtWrap (advanceRow (State.emit evs { s with stim := r }))).outcome := by
  have hlines := run_inside_lineSteps (he ▸ rowSeq_lineEventOf s.row g) h (ag := .disp)
    (tail := [.advanceRow, .swapAtWrap]) (r := .tick :: .tick :: r) nofun 2
  rw [length_rowSeq_micros] at hlines
  have hadvance := step_inside_cons (h.emit evs) (ag := .disp) (g := g) (m := .advanceRow) (ms := [.swapAtWrap])
    (r := .tick :: r) (t := advanceRow (s.emit evs)) nofun rfl
  have hlast := step_inside_last (s := advanceRow (s.emit evs)) h (ag := .disp) (g := g) (m := .swapAtWrap) (r := r) ha
    (maps_swapAtWrap id id (⟨.disp, g, []⟩ :: ·) _)
  rw [hlines, run_succ hadvance, run_one, hlast]
  rfl

/-- After its first step a DISP activation reads the row; that failing ends it. -/
theorem run_inside_display (ha : s.acts = []) (hd : s.dispDue = false) :
    Sys2Proof.core.run 583 (s.inside ⟨.disp, g, displayMicros s.row⟩
        (.tick :: (List.replicate 580 .tick ++ .tick :: .tick :: r))) =
      (displayBody { s with stim := r }).outcome := by
  have hne : rowSeq s.row Micro.bit Micro.event ++ [.advanceRow, .swapAtWrap] ≠ [] := by simp
  rw [displayBody_of_not_due (s := { s with stim := r }) hd, displayMicros]
  obtain hc | ⟨c, hc, hb⟩ | ⟨c, bs, hc, hb⟩ := currentRow_cases s
  · rw [run_succ (step_loadRow_none h hc _ g _ _), currentRow_none (s := { s with stim := r }) hc]
    exact run_of_halted (n := 582) rfl (replicate_append_two 580 r)
  · rw [run_fault (step_loadRow_unwritten h hc hb _ g _ _), currentRow_unwritten (s := { s with stim := r }) hc hb]
    rfl
  · obtain ⟨evs, he⟩ : ∃ evs, evs = rowEvents s.row ((rowOfBytes bs).map gammaColor) := ⟨_, rfl⟩
    rw [run_succ (step_loadRow_read h hc hb _ g hne _), run_inside_sendRow h _ r ha he,
      currentRow_read (s := { s with stim := r }) hc hb, Res.bind_ok, sendRow_fin, Res.bind_ok, he]

end InsideDisplay

/-- 584 primitive steps make a DISP activation (R220). -/
theorem run_display {s : State} {r : List Stim} (hp : s.phase = .run) (ha : s.acts = []) (hl : s.locks = [])
    (hf : s.rxFifo = []) (hd : s.dispDue = true) (hv : s.saverDue = false) (hs : s.stim = List.replicate 584 .tick ++ r) :
    Sys2Proof.core.run 584 s = exec .displayTick { s with stim := r } := by
  have hdisp : dispatch { s with stim := List.replicate 583 .tick ++ r } = .start .disp :=
    dispatch_disp hp hf hd hv (by rw [eff_of_rest (by exact ha) (by exact hl)]; decide)
  have hstart : step s = .next (State.inside ⟨.disp, Vector.replicate 8 Color.black, displayMicros s.row⟩
      (List.replicate 583 .tick ++ r) { s with dispDue := false }) := by
    rw [step_starts (r := List.replicate 583 .tick ++ r) hs hdisp]
    simp only [fineStart, Plan.run, State.push, State.inside, ha]
  have hticks : List.replicate 583 Stim.tick ++ r = .tick :: (List.replicate 580 .tick ++ .tick :: .tick :: r) :=
    congrArg (Stim.tick :: ·) (replicate_append_two 580 r).symm
  have hrest := run_inside_display (s := { s with dispDue := false }) (.inr ⟨hp, hf, rfl, hv⟩)
    (Vector.replicate 8 Color.black) r ha rfl
  rw [run_succ hstart, hticks, exec_displayTick (s := { s with stim := r }) hp hd]
  exact hrest

/-- Settles O9. -/
theorem activationsByPrimitiveStepsAreAtomic : Obligations.ActivationsByPrimitiveStepsAreAtomic :=
  ⟨fun _ _ => run_display, fun _ _ => run_saver, fun _ _ => run_notice, fun _ _ => run_boot⟩

end Sys2Proof.Machine
end
